-- ==== Sys2Proof/Word.lean ====
section
/-! DEFINITION. The two widths of the block: bytes and 16-bit values, both unsigned (00_scope.md R12, R13). -/

namespace Sys2Proof

/-- A byte, u8 (R12, R13). -/
abbrev Byte := BitVec 8

/-- A 16-bit unsigned value, u16 (R13): a measurement or a capture value. -/
abbrev Word := BitVec 16

end Sys2Proof
end

