-- ==== Sys2Proof/Config.lean ====
section
/-! DEFINITION. What an implementation fixes (00_scope.md R5, R6, R7) and the values the spec leaves open. -/

namespace Sys2Proof

/-- MODE (R5): which transport the block was built for. It changes only at RESET (R98). -/
inductive Mode where
  | uart
  | pwm
deriving DecidableEq, Repr

/-- STORE_RESET (R6): what the Measurement Store holds after reset. -/
inductive StoreReset where
  | zero
  | unwritten
deriving DecidableEq, Repr

/-- PWM_UNDERFLOW (R7): what the offset subtraction does to a capture below 2. -/
inductive PwmUnderflow where
  | wrap
  | saturate
  | fault
deriving DecidableEq, Repr

/-- The spec's two open parameters. A state carries them, no step changes them, and a statement about
every state is a statement about every choice of them (DESIGN CHOICE, log 4, safe). -/
structure Params where
  storeReset   : StoreReset
  pwmUnderflow : PwmUnderflow
deriving DecidableEq, Repr

/-- The defaults of R6 and R7: ZERO and WRAP. -/
def Params.default : Params := { storeReset := .zero, pwmUnderflow := .wrap }

/-- FREE VALUE (log 6): byte `i` of `rx_buf` after the `n`-th RESET step. The spec leaves the buffer's reset
contents unspecified (R22, R97, U4). The same for every copy of the block (DESIGN CHOICE, log 23, unsafe). -/
opaque Config.freeRxByte : Nat → Nat → Byte

/-- FREE VALUE (log 7): value `i` of the store (0 is PM2.5, 1 is PM10) after the `n`-th RESET step under
STORE_RESET = UNWRITTEN, where the spec gives it no value (R20, R97). The same for every copy of the block (DESIGN
CHOICE, log 23, unsafe). -/
opaque Config.freeStoreWord : Nat → Nat → Word

end Sys2Proof
end

