-- ==== Sys2Proof/Syntax.lean ====
section
/-! DEFINITION. The instructions of the block: one constructor per row of spec/opcode_table.json. -/

namespace Sys2Proof

/-- Exactly ten bytes, byte 0 first on the wire (R12, R36): the content of one delivery and of `rx_buf`. -/
structure Bytes10 where
  b0 : Byte
  b1 : Byte
  b2 : Byte
  b3 : Byte
  b4 : Byte
  b5 : Byte
  b6 : Byte
  b7 : Byte
  b8 : Byte
  b9 : Byte
deriving DecidableEq, Repr

/-- The two encoding levels of R48, the wire level split by direction: an operation serialisation (R57), an
inbound wire frame (R49), an outbound wire frame (R50, R51, R52). -/
inductive Level where
  | op
  | wireIn
  | wireOut
deriving DecidableEq, Repr

/-- The rows of spec/opcode_table.json: host operations, events and RESET (R57), then the wire frames
(R49 to R52). -/
inductive Instr where
  /-- INIT `01`: R69 in MODE = UART, R79 in MODE = PWM. -/
  | init
  /-- INIT_PWM `01`: INIT's word as MODE = PWM selects it (R79). -/
  | initPwm
  /-- SETWP `02 p` (R71). -/
  | setwp (p : Byte)
  /-- SLEEP `03` (R72). -/
  | sleep
  /-- WAKE `04` (R73). -/
  | wake
  /-- GETPM25 `05` (R82). -/
  | getPm25
  /-- GETPM10 `06` (R83). -/
  | getPm10
  /-- RXDONE `10 b0 .. b9` (R70). -/
  | rxdone (b : Bytes10)
  /-- EDGE `11 c10lo c10hi c25lo c25hi` (R75 to R78). -/
  | edge (c10 c25 : Word)
  /-- RESET_UART `1F 00` (R97). -/
  | resetUart
  /-- RESET_PWM `1F 01` (R97). -/
  | resetPwm
  /-- RX_MEAS, the valid inbound measurement frame (R49): raw PM2.5, raw PM10, device-id; its checksum is
  computed, so no invalid frame can be written. -/
  | rxMeas (raw25 raw10 devId : Word)
  /-- TX_SETWP, the outbound set-working-period frame (R50) with period byte `q`. -/
  | txSetwp (q : Byte)
  /-- TX_SLEEP, the outbound sleep frame (R51). -/
  | txSleep
  /-- TX_WAKE, the outbound wake probe (R52). -/
  | txWake
deriving DecidableEq, Repr

end Sys2Proof
end

