-- ==== Sys2Proof/Machine/State.lean ====
section
/-! DEFINITION. The state of one instance of the block (10_state.md R18), the reasons a step can stop, and the
state right after reset (R97). Plain data throughout. -/

namespace Sys2Proof.Machine

/-- The sequencer states of R24. -/
inductive PwmState where
  | awaitRise
  | awaitFall1
  | awaitFall2
deriving DecidableEq, Repr

/-- A trigger polarity of the capture channel (R25). -/
inductive Polarity where
  | rising
  | falling
deriving DecidableEq, Repr

/-- TX_STATUS (R17, R68): the TX transport's answer to a send. -/
inductive TxStatus where
  | sent
  | timedOut
  | transportError
deriving DecidableEq, Repr

/-- What HOST_RES carries (R17): OK, FAIL or a u16. -/
inductive HostResult where
  | ok
  | fail
  | value (v : Word)
deriving DecidableEq, Repr

/-- The output ports recorded in the history (R17, R26). -/
inductive Port where
  | rxCtl
  | txData
  | timCtl
deriving DecidableEq, Repr

/-- One entry of the output history `H` (R26): the item, which names its port; a TX_DATA item with the transport's
answer beside it. -/
inductive Out where
  /-- RX_CTL: `Arm(n)`, a request for the next `n`-byte delivery. -/
  | arm (n : Nat)
  /-- TX_DATA: the bytes sent and the TX_STATUS answer. -/
  | tx (bytes : List Byte) (status : TxStatus)
  /-- TIM_CTL: `CounterReset`. -/
  | counterReset
  /-- TIM_CTL: `SetPolarity(p)`. -/
  | setPolarity (p : Polarity)
deriving DecidableEq, Repr

/-- One input from an agent of R16: an operation serialisation (R57) or a wire frame (R49 to R52), with the draw
that answers its send, should it make one (R59). -/
structure Input where
  level  : Level
  bytes  : List Byte
  status : TxStatus
deriving DecidableEq, Repr

/-- The spec's fault reasons (R86). A step that raises one answers the next state with the mark `fault` set (R87);
every later step other than RESET stops with it. Safe: the machine stops where the spec gives no further step. -/
inductive Fault where
  /-- Raised by EDGE in AWAIT_FALL2 with a capture below 2 under PWM_UNDERFLOW = FAULT (R74, R78). Safe. -/
  | pwmUnderflow
  /-- Raised by GETPM25 and GETPM10 before the first StoreWrite under STORE_RESET = UNWRITTEN (R82, R83). Safe. -/
  | unwrittenRead
deriving DecidableEq, Repr

/-- The spec's refusal reasons (R86), the values of the mark `refused`. -/
inductive RefusedReason where
  /-- SETWP, SLEEP, WAKE in MODE = PWM (R66). -/
  | wrongMode
  /-- SETWP, SLEEP, WAKE before INIT (R66). -/
  | notInitialised
  /-- Bytes that spell no operation (R57, R58). -/
  | unknownOp
deriving DecidableEq, Repr

/-- Why a step has no meaning. -/
inductive Refusal where
  /-- Answered by every instruction but RESET once `refused` is marked with `r`: the instance has no further
  step (R87). Safe. -/
  | marked (r : RefusedReason)
  /-- Answered by RXDONE and RX_MEAS while MODE is not UART or no receive is armed: the event has no step (R17,
  R70, U10). Safe: nothing is claimed of a state the spec says cannot see the event (log 9). -/
  | rxNotEnabled
  /-- Answered by EDGE while MODE is not PWM or before INIT: the event has no step (R17, R75, U10). Safe (log 9). -/
  | edgeNotEnabled
  /-- Answered by TX_SETWP, TX_SLEEP and TX_WAKE where no rule sends: MODE is not UART, or before INIT (R66, R69).
  Safe (log 12). -/
  | txNotEnabled
  /-- Answered by step for wire-level bytes that are no delivery and no outbound frame: no agent can raise them
  (R17, R56). Safe (log 19). -/
  | notAFrame
  /-- No meaning has been written for the instruction. Safe. -/
  | notModelled (mnemonic : String)
deriving DecidableEq, Repr

/-- The state `st` of R18 with MODE (R31), the spec's parameters, and the ports a step reads or writes. -/
structure State where
  /-- MODE (R5, R31, R97). -/
  mode       : Mode
  /-- STORE_RESET and PWM_UNDERFLOW (R6, R7; log 4). -/
  params     : Params
  /-- Initialize has been performed (R19). -/
  init       : Bool
  /-- Stored PM2.5 (R20). -/
  pm25       : Word
  /-- Stored PM10 (R20). -/
  pm10       : Word
  /-- The store has been written since reset (R21). -/
  storeValid : Bool
  /-- The receive buffer (R22). -/
  rxBuf      : Bytes10
  /-- A receive request is pending (R23). -/
  rxArmed    : Bool
  /-- The sequencer state (R24). -/
  pwmState   : PwmState
  /-- The polarity last asked for on TIM_CTL (R25). -/
  capPol     : Polarity
  /-- The output history, oldest first (R26). -/
  H          : List Out
  /-- The fault mark (R27, R87). -/
  fault      : Option Fault
  /-- The refusal mark (R27, R87). -/
  refused    : Option RefusedReason
  /-- HOST_RES: the results returned since reset, oldest first (R14, R17, R100; log 8). -/
  hostRes    : List HostResult
  /-- TX_STATUS: the answer to the send of the step being taken (R68; log 3). -/
  txStatus   : TxStatus
  /-- What the agents do next, first to be taken first (R16, R57; log 2). -/
  input      : List Input
  /-- The model's own: how many free values RESET has drawn (log 22). -/
  freeDraws  : Nat
deriving DecidableEq, Repr

/-- The machine right after reset, as R97 says. The spec leaves three things to choose here: MODE, which RESET's
operand gives, is UART (DESIGN CHOICE, log 5); `rx_buf` is ten zero bytes (DESIGN CHOICE, unsafe, log 6); the
parameters have their defaults (R6, R7). No input is pending. -/
def State.reset : State where
  mode       := .uart
  params     := Params.default
  init       := false
  pm25       := 0
  pm10       := 0
  storeValid := false
  rxBuf      := ⟨0, 0, 0, 0, 0, 0, 0, 0, 0, 0⟩
  rxArmed    := false
  pwmState   := .awaitRise
  capPol     := .rising
  H          := []
  fault      := none
  refused    := none
  hostRes    := []
  txStatus   := .sent
  input      := []
  freeDraws  := 0

end Sys2Proof.Machine
end

