-- ==== Sys2Proof/Machine/Flags.lean ====
section
/-! DEFINITION. What stands in the place of flags. The block has none: no frame's validity is kept and no send's
failure is latched (10_state.md R30); a send's failure is the operation's result (R68 to R73, R86). -/

namespace Sys2Proof.Machine

/-- The result of an operation whose send was answered with this status: OK exactly when SENT (R69, R71 to R73). -/
def sendResult : TxStatus → HostResult
  | .sent => .ok
  | .timedOut => .fail
  | .transportError => .fail

/-- The port of a history entry (R26). -/
def outPort : Out → Port
  | .arm _ => .rxCtl
  | .tx _ _ => .txData
  | .counterReset => .timCtl
  | .setPolarity _ => .timCtl

/-- `pwm_state` as a number (R24, R31). -/
def pwmStateCode : PwmState → BitVec 2
  | .awaitRise => 0
  | .awaitFall1 => 1
  | .awaitFall2 => 2

/-- `cap_pol` as a number (R31). -/
def polarityCode : Polarity → BitVec 1
  | .rising => 0
  | .falling => 1

end Sys2Proof.Machine
end

