-- ==== Sys2Proof/Machine/Operands.lean ====
section
/-! DEFINITION. Every operand form: little-endian assembly, the byte checksum, the period clamp, the PWM
offset and the numeric codes of the spec (R4, R13, R31, R53, R60, R74). -/

namespace Sys2Proof.Machine

/-- HDR, the header byte (R4). -/
def hdr : Byte := 0xAA
/-- TAIL, the tail byte (R4). -/
def tail : Byte := 0xAB
/-- CMD_DATA, the inbound command byte (R4). -/
def cmdData : Byte := 0xC0
/-- CMD_OUT, the outbound command byte (R4). -/
def cmdOut : Byte := 0xB4
/-- RX_FRAME_LEN (R4): the length of every delivery (R56). -/
def rxFrameLen : Nat := 10
/-- TX_FRAME_LEN (R4). -/
def txFrameLen : Nat := 19
/-- WAKE_LEN (R4). -/
def wakeLen : Nat := 1
/-- WP_MAX, the working-period clamp (R4). -/
def wpMax : Byte := 30
/-- PWM_OFFSET (R4). -/
def pwmOffset : Word := 2
/-- SERIAL_DIVISOR (R4). -/
def serialDivisor : Word := 10

/-- `v[7:0]` of a 16-bit value (R12, R59). -/
def lo (v : Word) : Byte := v.setWidth 8

/-- `v[15:8]` of a 16-bit value (R12, R59). -/
def hi (v : Word) : Byte := (v >>> 8).setWidth 8

/-- `le16(lo, hi)` of R13: both bytes zero-extended. -/
def le16 (l h : Byte) : Word := (h.setWidth 16 <<< 8) ||| l.setWidth 16

/-- Ten bytes in wire order (R36). -/
def bytes10List (b : Bytes10) : List Byte :=
  [b.b0, b.b1, b.b2, b.b3, b.b4, b.b5, b.b6, b.b7, b.b8, b.b9]

/-- A list of exactly ten bytes as a delivery; no partial delivery is ever seen (R17, R39). -/
def toBytes10 : List Byte → Option Bytes10
  | [b0, b1, b2, b3, b4, b5, b6, b7, b8, b9] => some ⟨b0, b1, b2, b3, b4, b5, b6, b7, b8, b9⟩
  | _ => none

/-- `Checksum(b, lo, hi)` of R60: the exact sum of bytes `lo` to `hi`, then reduced modulo 256. -/
def checksum (b : List Byte) (lo hi : Nat) : Byte :=
  BitVec.ofNat 8 (((b.drop lo).take (hi + 1 - lo)).map BitVec.toNat).sum

/-- `min(p, 30)` (R50, R63). -/
def clampPeriod (p : Byte) : Byte := if p ≤ wpMax then p else wpMax

/-- The stored value of a raw serial field: division by 10, truncating (R13, R61). -/
def scaleRaw (raw : Word) : Word := raw / serialDivisor

/-- `Offset(c)` of R74; `none` is its `raise Fault(PwmUnderflow)`. -/
def offset (u : PwmUnderflow) (c : Word) : Option Word :=
  if pwmOffset ≤ c then some (c - pwmOffset)
  else match u with
    | .wrap => some (c - pwmOffset)
    | .saturate => some 0
    | .fault => none

/-- MODE as a number: UART 0, PWM 1 (R31, R57). -/
def modeCode : Mode → Byte
  | .uart => 0
  | .pwm => 1

/-- The mode a RESET operand names; any other byte names none (R57). -/
def modeOfCode (m : Byte) : Option Mode :=
  if m = modeCode .uart then some .uart else if m = modeCode .pwm then some .pwm else none

end Sys2Proof.Machine
end

