-- ==== Sys2Proof/Machine/FrameCodec.lean ====
section
/-! DEFINITION. The Frame Codec (40_frame_codec.md): pure functions, no state read or written. -/

namespace Sys2Proof.Machine

/-- `Decode(b)` of R61: header, command byte, tail and checksum, then both fields little-endian over 10. -/
def decodeFrame (b : Bytes10) : Option (Word × Word) :=
  if b.b0 ≠ hdr then none
  else if b.b1 ≠ cmdData then none
  else if b.b9 ≠ tail then none
  else if checksum (bytes10List b) 2 7 ≠ b.b8 then none
  else some (scaleRaw (le16 b.b2 b.b3), scaleRaw (le16 b.b4 b.b5))

/-- A 19-byte command frame: header, 0xB4, the bytes given for positions 2, 3 and 4, ten zero bytes, two
reserved 0xFF bytes, the checksum over bytes 2..16, the tail (R50, R51, R55). -/
def commandFrame (kind sub payload : Byte) : List Byte :=
  let body := [hdr, cmdOut, kind, sub, payload] ++ List.replicate 10 0x00 ++ [0xFF, 0xFF]
  body ++ [checksum body 2 16, tail]

/-- `EncodeSetWorkingPeriod(p)` of R63. -/
def encodeSetWorkingPeriod (p : Byte) : List Byte := commandFrame 0x08 0x01 (clampPeriod p)

/-- `EncodeSleepCommand()` of R64: a constant, with the byte of R51 that the source's literal lost (C2). -/
def encodeSleepCommand : List Byte :=
  [0xAA, 0xB4, 0x06, 0x01, 0x00,
   0x00, 0x00, 0x00, 0x00, 0x00, 0x00, 0x00, 0x00, 0x00, 0x00,
   0xFF, 0xFF, 0x05, 0xAB]

/-- `EncodeWakeByte()` of R65. -/
def encodeWakeByte : List Byte := [0x01]

/-- The valid inbound frame of R49 that carries these raw fields; R59 writes it as RXMEAS. The block never
builds it (R62): it is what a sensor puts on the line. -/
def measurementFrame (raw25 raw10 devId : Word) : Bytes10 :=
  let sum := checksum [lo raw25, hi raw25, lo raw10, hi raw10, lo devId, hi devId] 0 5
  ⟨hdr, cmdData, lo raw25, hi raw25, lo raw10, hi raw10, lo devId, hi devId, sum, tail⟩

end Sys2Proof.Machine
end

