-- ==== Sys2Proof/Machine/Ops.lean ====
section
/-! DEFINITION. The named operations every meaning is built from: the pseudocode primitives of 00_scope.md R14, the
marks of 60_exceptions.md R86 and R87 (what stands in place of taking an exception), and their reset. -/

namespace Sys2Proof.Machine

/-- What a step answers. -/
abbrev Result := Host.Outcome State Fault Refusal

/-- `Emit(port, item)` (R14, R26). -/
def emit (o : Out) (s : State) : State := { s with H := s.H ++ [o] }

/-- `return r` (R14): the host operation's result goes to HOST_RES. -/
def reply (r : HostResult) (s : State) : State := { s with hostRes := s.hostRes ++ [r] }

/-- `StoreWrite(v25, v10)` (R81): both values in one indivisible write. -/
def storeWrite (v25 v10 : Word) (s : State) : State :=
  { s with pm25 := v25, pm10 := v10, storeValid := true }

/-- `ArmRx()` (R67): no effect while a request is pending. -/
def armRx (s : State) : State :=
  if s.rxArmed then s else emit (.arm rxFrameLen) { s with rxArmed := true }

/-- `TxSend(bytes)` (R68): the status is this step's draw; the bytes are recorded whatever it is. -/
def txSend (bytes : List Byte) (s : State) : TxStatus × State :=
  (s.txStatus, emit (.tx bytes s.txStatus) s)

/-- `raise Fault(r)` (R14, R27, R87): nothing but the mark changes. The host's outcome of a fault carries no state,
so the raising step answers the marked state, and `ifLive` stops every later step (DESIGN CHOICE, log 1). -/
def raiseFault (r : Fault) (s : State) : Result := .next { s with fault := some r }

/-- `raise Refused(r)` (R14, R27, R87): nothing but the mark changes (DESIGN CHOICE, log 1). -/
def raiseRefused (r : RefusedReason) (s : State) : Result := .next { s with refused := some r }

/-- A marked instance has no further step (R87): it stops with the reason recorded. -/
def ifLive (s : State) (k : State → Result) : Result :=
  match s.fault, s.refused with
  | some r, _ => .fault r
  | none, some r => .refused (.marked r)
  | none, none => k s

/-- `CommandGuard()` (R66), WrongMode before NotInitialised (R89), before any effect. -/
def commandGuard (s : State) (k : State → Result) : Result :=
  if s.mode ≠ .uart then raiseRefused .wrongMode s
  else if s.init = false then raiseRefused .notInitialised s
  else k s

/-- The host-operation tail shared by the sends: TxSend, then OK or FAIL (R69, R71 to R73). -/
def sendAndReply (bytes : List Byte) (s : State) : State :=
  let sent := txSend bytes s
  reply (sendResult sent.1) sent.2

/-- A read of the store (R82, R83): it faults only under STORE_RESET = UNWRITTEN before the first write. -/
def readStore (value : State → Word) (s : State) : Result :=
  if s.params.storeReset = .unwritten ∧ s.storeValid = false then raiseFault .unwrittenRead s
  else .next (reply (.value (value s)) s)

/-- RESET(m) (R97): every field to its reset value, MODE to `m`, both marks cleared, nothing emitted. Where the spec
gives no value (`rx_buf`; the store under UNWRITTEN) a free value is drawn (log 6, log 7). It depends on `freeDraws` and
the position alone, so two copies, or two runs, with equal `freeDraws` draw equal contents: the spec leaves open whether
they are independent (R11, R95; DESIGN CHOICE, log 23, unsafe). The parameters and the agents' inputs are not the
block's state and stay (log 18). -/
def resetTo (m : Mode) (s : State) : State :=
  { s with
    mode := m
    init := false
    pm25 := match s.params.storeReset with | .zero => 0 | .unwritten => Config.freeStoreWord s.freeDraws 0
    pm10 := match s.params.storeReset with | .zero => 0 | .unwritten => Config.freeStoreWord s.freeDraws 1
    storeValid := false
    rxBuf :=
      ⟨Config.freeRxByte s.freeDraws 0, Config.freeRxByte s.freeDraws 1, Config.freeRxByte s.freeDraws 2,
       Config.freeRxByte s.freeDraws 3, Config.freeRxByte s.freeDraws 4, Config.freeRxByte s.freeDraws 5,
       Config.freeRxByte s.freeDraws 6, Config.freeRxByte s.freeDraws 7, Config.freeRxByte s.freeDraws 8,
       Config.freeRxByte s.freeDraws 9⟩
    rxArmed := false
    pwmState := .awaitRise
    capPol := .rising
    H := []
    fault := none
    refused := none
    hostRes := []
    freeDraws := s.freeDraws + 1 }

end Sys2Proof.Machine
end

