-- ==== Sys2Proof/Machine/MeasurementStore.lean ====
section
/-! DEFINITION. The Measurement Store's reads (43_measurement_store.md); its one writer is storeWrite (R81). -/

namespace Sys2Proof.Machine

/-- GETPM25 (R82), allowed in both modes, before and after INIT. -/
def execGetPm25 (s : State) : Result := ifLive s (readStore State.pm25)

/-- GETPM10 (R83), allowed in both modes, before and after INIT. -/
def execGetPm10 (s : State) : Result := ifLive s (readStore State.pm10)

end Sys2Proof.Machine
end

