-- ==== Sys2Proof/Machine/SerialSession.lean ====
section
/-! DEFINITION. The Serial Session (41_serial_session.md): INIT in MODE = UART, RXDONE, SETWP, SLEEP, WAKE. -/

namespace Sys2Proof.Machine

/-- INIT_UART() of R69: the receive is armed and `init` set whatever the send's answer. -/
def initUart (s : State) : State :=
  let s := { s with init := true }
  let sent := txSend (encodeSetWorkingPeriod 0) s
  reply (sendResult sent.1) (armRx sent.2)

/-- RXDONE's enabling condition (R17, R70). -/
def rxEnabled (s : State) : Bool := s.mode == .uart && s.rxArmed

/-- RXDONE(b) of R70: the request is consumed, the whole buffer replaced, a valid frame stored, the receive
re-armed unconditionally. -/
def receive (b : Bytes10) (s : State) : State :=
  let s := { s with rxArmed := false }
  let s := { s with rxBuf := b }
  let s := match decodeFrame s.rxBuf with
    | some (v25, v10) => storeWrite v25 v10 s
    | none => s
  armRx s

/-- A delivery where it is enabled; elsewhere the event has no step (R17, U10; log 9). -/
def deliver (b : Bytes10) (s : State) : Result :=
  if rxEnabled s then .next (receive b s) else .refused .rxNotEnabled

/-- WAKE's body (R73): re-arm only after SENT. -/
def wakeAndReply (s : State) : State :=
  let sent := txSend encodeWakeByte s
  let s := if sent.1 = .sent then armRx sent.2 else sent.2
  reply (sendResult sent.1) s

/-- RXDONE (R70). -/
def execRxdone (b : Bytes10) (s : State) : Result := ifLive s (deliver b)

/-- SETWP p (R71). -/
def execSetwp (p : Byte) (s : State) : Result :=
  ifLive s fun s => commandGuard s fun s => .next (sendAndReply (encodeSetWorkingPeriod p) s)

/-- SLEEP (R72). -/
def execSleep (s : State) : Result :=
  ifLive s fun s => commandGuard s fun s => .next (sendAndReply encodeSleepCommand s)

/-- WAKE (R73). -/
def execWake (s : State) : Result :=
  ifLive s fun s => commandGuard s fun s => .next (wakeAndReply s)

end Sys2Proof.Machine
end

