-- ==== Sys2Proof/Machine/PwmSequencer.lean ====
section
/-! DEFINITION. The PWM Edge Sequencer (42_pwm_sequencer.md): EDGE by sequencer state, and INIT, whose rule MODE
selects (R69, R79). -/

namespace Sys2Proof.Machine

/-- EDGE_RISE() of R76. -/
def edgeRise (s : State) : State :=
  let s := emit .counterReset s
  let s := { s with capPol := .falling }
  let s := emit (.setPolarity .falling) s
  { s with pwmState := .awaitFall1 }

/-- EDGE_FALL1() of R77. -/
def edgeFall1 (s : State) : State := { s with pwmState := .awaitFall2 }

/-- EDGE_FALL2(c10, c25) of R78; a capture below 2 under FAULT faults before any field is written. -/
def edgeFall2 (c10 c25 : Word) (s : State) : Result :=
  match offset s.params.pwmUnderflow c10, offset s.params.pwmUnderflow c25 with
  | some v10, some v25 =>
    let s := { s with capPol := .rising }
    let s := emit (.setPolarity .rising) s
    let s := storeWrite v25 v10 s
    .next { s with pwmState := .awaitRise }
  | _, _ => raiseFault .pwmUnderflow s

/-- EDGE's enabling condition (R17, R75). -/
def edgeEnabled (s : State) : Bool := s.mode == .pwm && s.init

/-- EDGE's dispatch (R75) where it is enabled; elsewhere the event has no step (R17, U10; log 9). -/
def captureEdge (c10 c25 : Word) (s : State) : Result :=
  if edgeEnabled s then
    match s.pwmState with
    | .awaitRise => .next (edgeRise s)
    | .awaitFall1 => .next (edgeFall1 s)
    | .awaitFall2 => edgeFall2 c10 c25 s
  else .refused .edgeNotEnabled

/-- INIT_PWM() of R79. -/
def initPwm (s : State) : State := reply .ok { s with init := true }

/-- Initialize: R69 in MODE = UART, R79 in MODE = PWM; no guard (R66). -/
def initialise (s : State) : State :=
  match s.mode with
  | .uart => initUart s
  | .pwm => initPwm s

/-- INIT (R69, R79). -/
def execInit (s : State) : Result := ifLive s fun s => .next (initialise s)

/-- INIT_PWM (R79): INIT's word and INIT's operation; in MODE = UART the word is R69's (DEDUCED, log 10). -/
def execInitPwm (s : State) : Result := ifLive s fun s => .next (initialise s)

/-- EDGE (R75). -/
def execEdge (c10 c25 : Word) (s : State) : Result := ifLive s (captureEdge c10 c25)

end Sys2Proof.Machine
end

