-- ==== Sys2Proof/Machine/Reset.lean ====
section
/-! DEFINITION. RESET (70_reset_and_hazards.md R97): always enabled (R17), the only step of a marked instance
(R87). -/

namespace Sys2Proof.Machine

/-- RESET_UART `1F 00` (R97). -/
def execResetUart (s : State) : Result := .next (resetTo .uart s)

/-- RESET_PWM `1F 01` (R97). -/
def execResetPwm (s : State) : Result := .next (resetTo .pwm s)

end Sys2Proof.Machine
end

