-- ==== Sys2Proof/Machine/WireFrames.lean ====
section
/-! DEFINITION. The wire frames of the opcode table (30_encoding.md R49 to R52) as what happens when the frame
passes the block's port: an inbound one is delivered (R36, R70), an outbound one is sent (R68). -/

namespace Sys2Proof.Machine

/-- Where the rules send a frame at all: only INIT, SETWP, SLEEP and WAKE do, in MODE = UART with `init` set
(R66, R69; DEDUCED, log 12). -/
def txEnabled (s : State) : Bool := s.mode == .uart && s.init

/-- One outbound frame passing TX_DATA: TxSend alone, with no result to the host (R17, R68; log 12). -/
def transmit (bytes : List Byte) (s : State) : Result :=
  if txEnabled s then .next (txSend bytes s).2 else .refused .txNotEnabled

/-- RX_MEAS: the delivery of the valid measurement frame with these raw fields (R49, R61, R70; log 11). -/
def execRxMeas (raw25 raw10 devId : Word) (s : State) : Result :=
  ifLive s (deliver (measurementFrame raw25 raw10 devId))

/-- TX_SETWP (R50, R63): the frame SETWP and INIT emit. -/
def execTxSetwp (q : Byte) (s : State) : Result := ifLive s (transmit (encodeSetWorkingPeriod q))

/-- TX_SLEEP (R51, R64): the frame SLEEP emits. -/
def execTxSleep (s : State) : Result := ifLive s (transmit encodeSleepCommand)

/-- TX_WAKE (R52, R65): the probe WAKE emits. -/
def execTxWake (s : State) : Result := ifLive s (transmit encodeWakeByte)

end Sys2Proof.Machine
end

