-- ==== Sys2Proof/Machine/Dispatch.lean ====
section
/-! DEFINITION. One arm per row of the opcode table. -/

namespace Sys2Proof.Machine

def exec (i : Instr) (s : State) : Host.Outcome State Fault Refusal :=
  match i with
  | .init => Sys2Proof.Machine.execInit s
  | .initPwm => Sys2Proof.Machine.execInitPwm s
  | .setwp p => Sys2Proof.Machine.execSetwp p s
  | .sleep => Sys2Proof.Machine.execSleep s
  | .wake => Sys2Proof.Machine.execWake s
  | .getPm25 => Sys2Proof.Machine.execGetPm25 s
  | .getPm10 => Sys2Proof.Machine.execGetPm10 s
  | .rxdone b => Sys2Proof.Machine.execRxdone b s
  | .edge c10 c25 => Sys2Proof.Machine.execEdge c10 c25 s
  | .resetUart => Sys2Proof.Machine.execResetUart s
  | .resetPwm => Sys2Proof.Machine.execResetPwm s
  | .rxMeas raw25 raw10 devId => Sys2Proof.Machine.execRxMeas raw25 raw10 devId s
  | .txSetwp q => Sys2Proof.Machine.execTxSetwp q s
  | .txSleep => Sys2Proof.Machine.execTxSleep s
  | .txWake => Sys2Proof.Machine.execTxWake s

end Sys2Proof.Machine
end

