-- ==== Sys2Proof/WellFormed.lean ====
section
/-! DEFINITION. Which terms of Instr are instructions of the table, and which mode selects the row of the
shared word `01`. -/

namespace Sys2Proof

/-- Every operand of R57 takes every value of its width. The one bound is on the wire: the period byte of a
set-working-period frame is `min(p, 30)`, so at most 30 (R50, R63). -/
def Instr.wf : Instr → Bool
  | .init | .initPwm | .setwp _ | .sleep | .wake | .getPm25 | .getPm10 => true
  | .rxdone _ | .edge _ _ | .resetUart | .resetPwm | .rxMeas _ _ _ => true
  | .txSetwp q => decide (q.toNat ≤ 30)
  | .txSleep | .txWake => true

/-- The rows INIT and INIT_PWM share the word `01`; MODE selects the row (the table's notes on both rows).
Every other row is selected in both modes. -/
def Instr.selectedIn : Mode → Instr → Bool
  | .uart, .initPwm => false
  | .pwm, .init => false
  | _, _ => true

end Sys2Proof
end

