-- ==== Sys2Proof/Decode.lean ====
section
/-! DEFINITION. Decoding of both encoding levels (30_encoding.md R48), total and rejecting by name; then the
encoder, written from the same tables; then the host's view of a table row. -/

namespace Sys2Proof

open Sys2Proof.Machine

/-- Why bytes spell nothing. The first four are R58's cases of the operation serialisation; the last two are of
the wire level (log 19). -/
inductive Reject where
  /-- An opcode byte R57 does not list. -/
  | unassigned (op : Byte)
  /-- An operation cut short (R58), the empty one among them. -/
  | cutShort
  /-- Bytes after a complete operation, so none of R57's layouts (DEDUCED, log 14). -/
  | trailingBytes
  /-- A RESET operand other than 00 and 01 (R57). -/
  | badResetMode (m : Byte)
  /-- An inbound delivery that is not 10 bytes long (R17, R56). -/
  | partialDelivery
  /-- Bytes that are none of the outbound frames (R50 to R52). -/
  | notAFrame
deriving DecidableEq, Repr

/-- R57's opcode bytes with the length of the whole operation in bytes. -/
def opFormats : List (Byte × Nat) :=
  [(0x01, 1), (0x02, 2), (0x03, 1), (0x04, 1), (0x05, 1), (0x06, 1), (0x10, 11), (0x11, 5), (0x1F, 2)]

/-- The length R57 gives the operation with this opcode byte. -/
def opLength (op : Byte) : Option Nat := (opFormats.find? fun row => row.1 == op).map (·.2)

/-- The instruction with this opcode byte and these operand bytes (R57). MODE selects the row of `01`. -/
def decodeArgs (m : Mode) (op : Byte) (args : List Byte) : Except Reject Instr :=
  if op = 0x01 then .ok (match m with | .uart => .init | .pwm => .initPwm)
  else if op = 0x02 then
    match args with
    | [p] => .ok (.setwp p)
    | _ => .error .cutShort
  else if op = 0x03 then .ok .sleep
  else if op = 0x04 then .ok .wake
  else if op = 0x05 then .ok .getPm25
  else if op = 0x06 then .ok .getPm10
  else if op = 0x10 then
    match toBytes10 args with
    | some b => .ok (.rxdone b)
    | none => .error .cutShort
  else if op = 0x11 then
    match args with
    | [c10l, c10h, c25l, c25h] => .ok (.edge (le16 c10l c10h) (le16 c25l c25h))
    | _ => .error .cutShort
  else if op = 0x1F then
    match args with
    | [r] => match modeOfCode r with
      | some .uart => .ok .resetUart
      | some .pwm => .ok .resetPwm
      | none => .error (.badResetMode r)
    | _ => .error .cutShort
  else .error (.unassigned op)

/-- One operation of R57, which the bytes must spell exactly. -/
def decodeOp (m : Mode) : List Byte → Except Reject Instr
  | [] => .error .cutShort
  | op :: args =>
    match opLength op with
    | none => .error (.unassigned op)
    | some n =>
      if args.length + 1 < n then .error .cutShort
      else if n < args.length + 1 then .error .trailingBytes
      else decodeArgs m op args

/-- One inbound delivery: the measurement frame of R49 where all its constraints hold, else any ten bytes as
RXDONE takes them, since no inbound bytes are illegal (R54). -/
def decodeWireIn (bytes : List Byte) : Except Reject Instr :=
  match toBytes10 bytes with
  | none => .error .partialDelivery
  | some b =>
    let meas := measurementFrame (le16 b.b2 b.b3) (le16 b.b4 b.b5) (le16 b.b6 b.b7)
    if b = meas then .ok (.rxMeas (le16 b.b2 b.b3) (le16 b.b4 b.b5) (le16 b.b6 b.b7))
    else .ok (.rxdone b)

/-- One outbound frame: it must be exactly one the encoders build (R50, R51, R52). -/
def decodeWireOut (bytes : List Byte) : Except Reject Instr :=
  let q := bytes.getD 4 0
  if bytes = encodeWakeByte then .ok .txWake
  else if bytes = encodeSleepCommand then .ok .txSleep
  else if q ≤ wpMax ∧ bytes = encodeSetWorkingPeriod q then .ok (.txSetwp q)
  else .error .notAFrame

/-- Decoding at either level of R48, total on any bytes. -/
def decode (m : Mode) (level : Level) (bytes : List Byte) : Except Reject Instr :=
  match level with
  | .op => decodeOp m bytes
  | .wireIn => decodeWireIn bytes
  | .wireOut => decodeWireOut bytes

/-- The level and the bytes of an instruction, from the layouts of R57 and R49 to R52. -/
def encode : Instr → Level × List Byte
  | .init => (.op, [0x01])
  | .initPwm => (.op, [0x01])
  | .setwp p => (.op, [0x02, p])
  | .sleep => (.op, [0x03])
  | .wake => (.op, [0x04])
  | .getPm25 => (.op, [0x05])
  | .getPm10 => (.op, [0x06])
  | .rxdone b => (.op, 0x10 :: bytes10List b)
  | .edge c10 c25 => (.op, [0x11, lo c10, hi c10, lo c25, hi c25])
  | .resetUart => (.op, [0x1F, 0x00])
  | .resetPwm => (.op, [0x1F, 0x01])
  | .rxMeas raw25 raw10 devId => (.wireIn, bytes10List (measurementFrame raw25 raw10 devId))
  | .txSetwp q => (.wireOut, encodeSetWorkingPeriod q)
  | .txSleep => (.wireOut, encodeSleepCommand)
  | .txWake => (.wireOut, encodeWakeByte)

/-- The first `n` bytes of a number whose bit 0 is the least significant bit of the first byte. -/
def bytesOfNat : Nat → Nat → List Byte
  | 0, _ => []
  | n + 1, w => BitVec.ofNat 8 w :: bytesOfNat n (w / 256)

/-- The level and bytes of a table row whose bits are `w`: an operation, with zero operand bytes above `nbits`, if
its first byte is an opcode of R57; else the wire frame its length names (R56). -/
def tableBytes (nbits w : Nat) : Level × List Byte :=
  let n := (nbits + 7) / 8
  let w := w % 2 ^ nbits
  match opLength (BitVec.ofNat 8 w) with
  | some k => (.op, bytesOfNat (max n k) w)
  | none =>
    if n = rxFrameLen then (.wireIn, bytesOfNat n w)
    else if n = txFrameLen then (.wireOut, bytesOfNat n w)
    else (.op, bytesOfNat n w)

/-- The instruction the decoder reads from a table row's bits in MODE = UART, the mode of State.reset (log 5).
The rows INIT_PWM and TX_WAKE have INIT's word `01` and read as INIT here (log 10). -/
def decodeTableWord (nbits w : Nat) : Option Instr :=
  match decode .uart (tableBytes nbits w).1 (tableBytes nbits w).2 with
  | .ok i => some i
  | .error _ => none

end Sys2Proof
end

