-- ==== Sys2Proof/Machine/Fetch.lean ====
section
/-! DEFINITION. Taking the next input of the outside agents (10_state.md R16, R17; 30_encoding.md R57, R58). The block
fetches no instructions (R29, R46); what stands in the place of a fetch is the next host operation or event. -/

namespace Sys2Proof.Machine

/-- What is to be done next. -/
inductive Fetched where
  /-- No agent does anything. -/
  | idle
  /-- The instruction the next input spells, and the state with the input taken and its draw presented. -/
  | instr (i : Instr) (s : State)
  /-- The next input spells nothing. -/
  | rejected (level : Level) (s : State)
deriving DecidableEq, Repr

/-- Takes the first pending input: its draw is presented on TX_STATUS (R59, R68), its bytes are decoded in the
present MODE. -/
def fetch (s : State) : Fetched :=
  match s.input with
  | [] => .idle
  | x :: rest =>
    let s' := { s with input := rest, txStatus := x.status }
    match decode s.mode x.level x.bytes with
    | .ok i => .instr i s'
    | .error _ => .rejected x.level s'

/-- No agent acts: the block waits (R97, R100), a marked one stays stopped (DESIGN CHOICE, log 15). -/
def waitForInput (s : State) : Result := ifLive s .next

/-- Bytes that spell nothing: Refused(UnknownOp) at the operation level (R57, R58); at the wire level no agent can
raise them (R17, R56; log 19). -/
def rejectInput (level : Level) (s : State) : Result :=
  ifLive s fun s =>
    match level with
    | .op => raiseRefused .unknownOp s
    | .wireIn => .refused .notAFrame
    | .wireOut => .refused .notAFrame

/-- A table row's word as the next input, with the draw SENT that R59 means where none is written. -/
def pushTableWord (s : State) (nbits w : Nat) : State :=
  let row := tableBytes nbits w
  { s with input := { level := row.1, bytes := row.2, status := .sent } :: s.input }

end Sys2Proof.Machine
end

