-- ==== Sys2Proof/Machine/Step.lean ====
section
/-! DEFINITION. One step of the block: the next input, decoded in the present MODE, then exec (00_scope.md R15). -/

namespace Sys2Proof.Machine

/-- One step: one host operation or one event, whole (R15, R42). -/
def step (s : State) : Host.Outcome State Fault Refusal :=
  match fetch s with
  | .idle => waitForInput s
  | .instr i s' => exec i s'
  | .rejected level s' => rejectInput level s'

/-- `s` with a table row's word as its next input (log 2). -/
def State.withFetchWord (s : State) (nbits w : Nat) : State := pushTableWord s nbits w

end Sys2Proof.Machine
end

