-- ==== Sys2Proof/Machine/Instances.lean ====
section
/-! DEFINITION. Several copies of the block side by side (N_INSTANCES: 00_scope.md R11, 60_exceptions.md R95). -/

namespace Sys2Proof.Machine

/-- One step of copy `k`, all other copies standing still. Any copy may be next, so a statement about every `k` is
one about every order of the copies' steps (log 16). Copies with equal `freeDraws` draw equal free values at RESET (log
23). `none` where there is no copy `k`. -/
def stepInstance (k : Nat) (copies : List State) : Option (Host.Outcome (List State) Fault Refusal) :=
  match copies[k]? with
  | none => none
  | some s => some (match step s with
    | .next t => .next (copies.set k t)
    | .fault r => .fault r
    | .refused r => .refused r)

end Sys2Proof.Machine
end

