-- ==== Sys2Proof/Machine/Program.lean ====
section
/-! DEFINITION. The program syntax of 30_encoding.md R59: its items, the two pseudo-operations' expansions, the text
form, and what loading a program means. The syntax is the spec's own and no port carries it (R48). -/

namespace Sys2Proof.Machine

/-- The lines of R59. `status` is the draw written `!status`. -/
inductive ProgramItem where
  | reset (m : Mode)
  | init (status : TxStatus)
  | setwp (p : Byte) (status : TxStatus)
  | sleep (status : TxStatus)
  | wake (status : TxStatus)
  | getPm25
  | getPm10
  | rxdone (b : Bytes10)
  | edge (c10 c25 : Word)
  /-- `RXMEAS a, c, d`: a valid frame with raw PM2.5 `a`, raw PM10 `c`, device-id `d`. -/
  | rxmeas (a c d : Word)
  /-- `PWMCYCLE c10, c25`: three edges, the third with these captures. -/
  | pwmcycle (c10 c25 : Word)
deriving DecidableEq, Repr

/-- The steps a line stands for, each with its draw; a line without a draw means SENT (R59). -/
def programSteps : ProgramItem → List (Instr × TxStatus)
  | .reset .uart => [(.resetUart, .sent)]
  | .reset .pwm => [(.resetPwm, .sent)]
  | .init st => [(.init, st)]
  | .setwp p st => [(.setwp p, st)]
  | .sleep st => [(.sleep, st)]
  | .wake st => [(.wake, st)]
  | .getPm25 => [(.getPm25, .sent)]
  | .getPm10 => [(.getPm10, .sent)]
  | .rxdone b => [(.rxdone b, .sent)]
  | .edge c10 c25 => [(.edge c10 c25, .sent)]
  | .rxmeas a c d => [(.rxdone (measurementFrame a c d), .sent)]
  | .pwmcycle c10 c25 => [(.edge 0 0, .sent), (.edge 0 0, .sent), (.edge c10 c25, .sent)]

/-- The inputs a line stands for: the serialisation of each of its steps (R57) with its draw. -/
def programInputs (item : ProgramItem) : List Input :=
  (programSteps item).map fun row =>
    { level := (encode row.1).1, bytes := (encode row.1).2, status := row.2 }

/-- A program placed behind the inputs already pending (log 2). -/
def loadProgram (program : List ProgramItem) (s : State) : State :=
  { s with input := s.input ++ program.flatMap programInputs }

/-- The digits of R59's numbers, each at the place of its value: a decimal number uses the first ten. -/
def numberDigits : List Char := "0123456789ABCDEF".toList

/-- The value of a digit in this base, a hexadecimal one in either case (log 20). -/
def digitValue (base : Nat) (c : Char) : Option Nat :=
  (numberDigits.take base).findIdx? fun d => d == c.toUpper

/-- The value of digits read after `acc`. -/
def digitsFrom (base : Nat) (acc : Nat) : List Char → Option Nat
  | [] => some acc
  | c :: cs =>
    match digitValue base c with
    | some d => digitsFrom base (acc * base + d) cs
    | none => none

/-- A number of R59: decimal, or hexadecimal after `0x`. -/
def parseNumber : List Char → Option Nat
  | [] => none
  | '0' :: 'x' :: d :: ds => digitsFrom 16 0 (d :: ds)
  | c :: cs => digitsFrom 10 0 (c :: cs)

/-- A number that fits a u8. -/
def parseU8 (cs : List Char) : Option Byte :=
  match parseNumber cs with
  | some n => if n < 256 then some (BitVec.ofNat 8 n) else none
  | none => none

/-- A number that fits a u16. -/
def parseU16 (cs : List Char) : Option Word :=
  match parseNumber cs with
  | some n => if n < 65536 then some (BitVec.ofNat 16 n) else none
  | none => none

/-- A byte of RXDONE, written as two hexadecimal digits. -/
def parseHexByte : List Char → Option Byte
  | [a, b] => (digitsFrom 16 0 [a, b]).map (BitVec.ofNat 8)
  | _ => none

/-- The bytes of RXDONE in order. -/
def parseHexBytes : List (List Char) → Option (List Byte)
  | [] => some []
  | t :: ts =>
    match parseHexByte t, parseHexBytes ts with
    | some b, some bs => some (b :: bs)
    | _, _ => none

/-- A draw `!status`; none written means SENT (R59). -/
def parseStatus : List (List Char) → Option TxStatus
  | [] => some .sent
  | [t] =>
    if t = "!SENT".toList then some .sent
    else if t = "!TIMED_OUT".toList then some .timedOut
    else if t = "!TRANSPORT_ERROR".toList then some .transportError
    else none
  | _ => none

/-- The word ended by a separator, if there is one. -/
def closeWord (word : List Char) : List (List Char) := if word = [] then [] else [word]

/-- The words of a line up to its comment; a comma is a word of its own (log 20). -/
def words (word : List Char) : List Char → List (List Char)
  | [] => closeWord word
  | c :: cs =>
    if c = ';' then closeWord word
    else if c = ' ' ∨ c = '\t' ∨ c = '\r' then closeWord word ++ words [] cs
    else if c = ',' then closeWord word ++ [','] :: words [] cs
    else words (word ++ [c]) cs

/-- Two u16 operands. -/
def pairOf (f : Word → Word → ProgramItem) (a b : List Char) : Option ProgramItem :=
  match parseU16 a, parseU16 b with
  | some a, some b => some (f a b)
  | _, _ => none

/-- The item with this mnemonic and these operands (R59). -/
def parseItem (mnemonic : List Char) (args : List (List Char)) : Option ProgramItem :=
  if mnemonic = "RESET".toList then
    if args = ["UART".toList] then some (.reset .uart)
    else if args = ["PWM".toList] then some (.reset .pwm)
    else none
  else if mnemonic = "INIT".toList then (parseStatus args).map .init
  else if mnemonic = "SETWP".toList then
    match args with
    | p :: rest =>
      match parseU8 p, parseStatus rest with
      | some p, some st => some (.setwp p st)
      | _, _ => none
    | [] => none
  else if mnemonic = "SLEEP".toList then (parseStatus args).map .sleep
  else if mnemonic = "WAKE".toList then (parseStatus args).map .wake
  else if mnemonic = "GETPM25".toList then if args = [] then some .getPm25 else none
  else if mnemonic = "GETPM10".toList then if args = [] then some .getPm10 else none
  else if mnemonic = "RXDONE".toList then
    match parseHexBytes args with
    | some bs => (toBytes10 bs).map .rxdone
    | none => none
  else if mnemonic = "EDGE".toList then
    match args with
    | [a, [','], b] => pairOf .edge a b
    | _ => none
  else if mnemonic = "RXMEAS".toList then
    match args with
    | [a, [','], c] => pairOf (fun a c => .rxmeas a c 0) a c
    | [a, [','], c, [','], d] =>
      match parseU16 d with
      | some d => pairOf (fun a c => .rxmeas a c d) a c
      | none => none
    | _ => none
  else if mnemonic = "PWMCYCLE".toList then
    match args with
    | [a, [','], b] => pairOf .pwmcycle a b
    | _ => none
  else none

/-- The items of one line: none for an empty line or a comment, one otherwise. -/
def parseLine (line : List Char) : Option (List ProgramItem) :=
  match words [] line with
  | [] => some []
  | mnemonic :: args => (parseItem mnemonic args).map fun item => [item]

/-- The lines of a text, the one being read given as `line`. -/
def linesOf (line : List Char) : List Char → List (List Char)
  | [] => [line]
  | c :: cs => if c = '\n' then line :: linesOf [] cs else linesOf (line ++ [c]) cs

/-- The items of these lines in order; `none` if a line is none of R59's. -/
def parseLines : List (List Char) → Option (List ProgramItem)
  | [] => some []
  | l :: ls =>
    match parseLine l, parseLines ls with
    | some a, some b => some (a ++ b)
    | _, _ => none

/-- A program text, one item per line (R59). -/
def parseProgram (text : List Char) : Option (List ProgramItem) := parseLines (linesOf [] text)

end Sys2Proof.Machine
end

