-- ==== Sys2Proof/Safety.lean ====
section
/-! DEFINITION. What counts as a safe run, and the terms the statements are written in: unmarked states, the
invariants of 10_state.md R33 and R34 and of the rules beside them, classes of instructions, and runs. -/

namespace Sys2Proof.Machine

/-- No fault and no refusal recorded: the premise R87 asks of a claim about a run. -/
abbrev State.Unmarked (s : State) : Prop := s.fault = none ∧ s.refused = none

/-- RESET in either of its forms (R97). -/
def isReset : Instr → Bool
  | .resetUart | .resetPwm => true
  | .init | .initPwm | .setwp _ | .sleep | .wake | .getPm25 | .getPm10 | .rxdone _ | .edge _ _ => false
  | .rxMeas _ _ _ | .txSetwp _ | .txSleep | .txWake => false

/-- The host operations of R16: they return a result on HOST_RES (R17). -/
def isHostOp : Instr → Bool
  | .init | .initPwm | .setwp _ | .sleep | .wake | .getPm25 | .getPm10 => true
  | .rxdone _ | .edge _ _ | .resetUart | .resetPwm | .rxMeas _ _ _ | .txSetwp _ | .txSleep | .txWake => false

/-- The commands that run the guard of R66. -/
def isCommand : Instr → Bool
  | .setwp _ | .sleep | .wake => true
  | .init | .initPwm | .getPm25 | .getPm10 | .rxdone _ | .edge _ _ | .resetUart | .resetPwm => false
  | .rxMeas _ _ _ | .txSetwp _ | .txSleep | .txWake => false

/-- The instructions whose rule calls TxSend (R69, R71 to R73), and the outbound frames. -/
def isSend : Instr → Bool
  | .init | .initPwm | .setwp _ | .sleep | .wake | .txSetwp _ | .txSleep | .txWake => true
  | .getPm25 | .getPm10 | .rxdone _ | .edge _ _ | .resetUart | .resetPwm | .rxMeas _ _ _ => false

/-- The deliveries: RXDONE, and the measurement frame as one (R70; log 11). -/
def isDelivery : Instr → Bool
  | .rxdone _ | .rxMeas _ _ _ => true
  | .init | .initPwm | .setwp _ | .sleep | .wake | .getPm25 | .getPm10 | .edge _ _ => false
  | .resetUart | .resetPwm | .txSetwp _ | .txSleep | .txWake => false

/-- EDGE (R75). -/
def isEdge : Instr → Bool
  | .edge _ _ => true
  | .init | .initPwm | .setwp _ | .sleep | .wake | .getPm25 | .getPm10 | .rxdone _ => false
  | .resetUart | .resetPwm | .rxMeas _ _ _ | .txSetwp _ | .txSleep | .txWake => false

/-- INIT by either of its rows (R69, R79). -/
def isInit : Instr → Bool
  | .init | .initPwm => true
  | .setwp _ | .sleep | .wake | .getPm25 | .getPm10 | .rxdone _ | .edge _ _ => false
  | .resetUart | .resetPwm | .rxMeas _ _ _ | .txSetwp _ | .txSleep | .txWake => false

/-- The 19 bytes of R50 written out, with period byte `q` and the checksum 0x07 + q that R50 derives. -/
def setwpFrame (q : Byte) : List Byte :=
  [0xAA, 0xB4, 0x08, 0x01, q, 0, 0, 0, 0, 0, 0, 0, 0, 0, 0, 0xFF, 0xFF, 0x07 + q, 0xAB]

/-- The 19 bytes of R51 written out. -/
def sleepFrame : List Byte :=
  [0xAA, 0xB4, 0x06, 0x01, 0, 0, 0, 0, 0, 0, 0, 0, 0, 0, 0, 0xFF, 0xFF, 0x05, 0xAB]

/-- `(s = SENT) ? OK : FAIL` (R69, R71 to R73). -/
def okIfSent (st : TxStatus) : HostResult := if st = .sent then .ok else .fail

/-- The inputs of a program line decode, in this mode, to these instructions with these draws, and to nothing else. -/
abbrev LineSpells (m : Mode) (item : ProgramItem) (steps : List (Instr × TxStatus)) : Prop :=
  (programInputs item).map (fun x => (decode m x.level x.bytes, x.status))
    = steps.map fun row => (.ok row.1, row.2)

/-- The instructions in order, up to the first stop. -/
def runInstrs : List Instr → State → Result
  | [], s => .next s
  | i :: is, s =>
    match exec i s with
    | .next t => runInstrs is t
    | .fault r => .fault r
    | .refused r => .refused r

/-- R34: the commanded polarity is rising exactly in AWAIT_RISE. -/
abbrev PolarityFollowsState (s : State) : Prop := s.capPol = .rising ↔ s.pwmState = .awaitRise

/-- R33: in MODE = UART a receive is pending from the first INIT on. -/
abbrev ArmedOnceInitialised (s : State) : Prop := s.mode = .uart → s.init = true → s.rxArmed = true

/-- Before INIT nothing is armed, the sequencer stands at its entry state, nothing has been emitted and the store
has not been written (R99). -/
abbrev QuietBeforeInit (s : State) : Prop :=
  s.init = false → s.rxArmed = false ∧ s.pwmState = .awaitRise ∧ s.H = [] ∧ s.storeValid = false

/-- Each transport's state moves in its own mode only (R5, R98). -/
abbrev ModesApart (s : State) : Prop :=
  (s.mode = .uart → s.pwmState = .awaitRise) ∧ (s.mode = .pwm → s.rxArmed = false)

/-- What the history may hold in a mode: RX_CTL asks for 10 bytes, TX_DATA carries a frame of R50 to R52, TIM_CTL
belongs to MODE = PWM (R17, R26, R56). -/
def outAllowed (m : Mode) : Out → Bool
  | .arm n => decide (m = .uart) && n == 10
  | .tx bytes _ => decide (m = .uart) && (decodeWireOut bytes).toBool
  | .counterReset => decide (m = .pwm)
  | .setPolarity _ => decide (m = .pwm)

/-- Every history entry is one the mode allows. -/
abbrev HistoryOfMode (s : State) : Prop := ∀ o ∈ s.H, outAllowed s.mode o = true

/-- At most one mark (R86, R89), each with the ground its rule gives it (R66, R74, R82, R83). -/
abbrev MarksGrounded (s : State) : Prop :=
  (s.fault = none ∨ s.refused = none)
  ∧ (s.fault = some .pwmUnderflow → s.params.pwmUnderflow = .fault ∧ s.mode = .pwm)
  ∧ (s.fault = some .unwrittenRead → s.params.storeReset = .unwritten ∧ s.storeValid = false)
  ∧ (s.refused = some .wrongMode → s.mode = .pwm)
  ∧ (s.refused = some .notInitialised → s.mode = .uart ∧ s.init = false)

/-- The store: zero until written under STORE_RESET = ZERO (R20), and in MODE = UART a tenth of a u16 (R61). -/
abbrev StoreInRange (s : State) : Prop :=
  (s.params.storeReset = .zero → s.storeValid = false → s.pm25 = 0 ∧ s.pm10 = 0)
  ∧ (s.mode = .uart → s.storeValid = true → s.pm25.toNat ≤ 6553 ∧ s.pm10.toNat ≤ 6553)

/-- The invariant of the block. -/
abbrev BlockInvariant (s : State) : Prop :=
  PolarityFollowsState s ∧ ArmedOnceInitialised s ∧ QuietBeforeInit s ∧ ModesApart s ∧ HistoryOfMode s
  ∧ MarksGrounded s ∧ StoreInRange s

end Sys2Proof.Machine
end

