-- ==== Sys2Proof/Certificates/Slice0/Obligations.lean ====
section
/-! DEFINITION. The statements for the provers, in the order of spec/'s files. -/

open Sys2Proof Sys2Proof.Machine

/-! ## The Frame Codec (40_frame_codec.md) and the operand forms -/

/-- R60: the checksum is the exact sum of bytes `lo` to `hi`, reduced modulo 256. -/
def Obligations.ChecksumIsByteSumMod256 : Prop :=
  ∀ (b : List Byte) (lo hi : Nat), lo ≤ hi → hi < b.length →
    (checksum b lo hi).toNat =
      ((List.range (hi + 1 - lo)).map fun k => (b.getD (lo + k) 0).toNat).sum % 256

/-- R61 with the frame of R49: Decode answers exactly on the four constraints, and what it answers is the two
little-endian fields over 10, truncated. Spec's own decision in the rule: D4. -/
def Obligations.DecodeAcceptsExactlyValidFrames : Prop :=
  ∀ (b : Bytes10) (v25 v10 : Word), decodeFrame b = some (v25, v10) ↔
    b.b0 = 0xAA ∧ b.b1 = 0xC0 ∧ b.b9 = 0xAB
    ∧ (b.b2.toNat + b.b3.toNat + b.b4.toNat + b.b5.toNat + b.b6.toNat + b.b7.toNat) % 256 = b.b8.toNat
    ∧ v25.toNat = (b.b2.toNat + 256 * b.b3.toNat) / 10
    ∧ v10.toNat = (b.b4.toNat + 256 * b.b5.toNat) / 10

/-- R62's reading of the round trip (C7), with R61's bound: an accepted frame's checksum recomputes to its byte 8,
and both values are at most 6553. -/
def Obligations.AcceptedFrameRechecks : Prop :=
  ∀ (b : Bytes10) (v25 v10 : Word), decodeFrame b = some (v25, v10) →
    checksum (bytes10List b) 2 7 = b.b8 ∧ v25.toNat ≤ 6553 ∧ v10.toNat ≤ 6553

/-- R63 and R50: the period frame for every operand; its byte 17 is the checksum of bytes 2 to 16, which is
0x07 + min(p, 30) by the spec's own inference (from R60). -/
def Obligations.SetwpFrameCarriesClampedPeriod : Prop :=
  ∀ p : Byte, encodeSetWorkingPeriod p = setwpFrame (BitVec.ofNat 8 (min p.toNat 30))
    ∧ (encodeSetWorkingPeriod p)[17]? = some (checksum (encodeSetWorkingPeriod p) 2 16)

/-- R64 with R51, and R65 with R52: the two constant sends; that the sleep frame's checksum byte is the checksum of
its bytes 2 to 16 is the spec's own inference in both rules (from R60). -/
def Obligations.ConstantFramesAreTheSpecs : Prop :=
  encodeSleepCommand = sleepFrame ∧ encodeSleepCommand.length = 19
  ∧ checksum encodeSleepCommand 2 16 = 0x05 ∧ encodeWakeByte = [0x01]

/-- R59's RXMEAS, by R49 and R61: the frame of any raw fields and device-id is valid and decodes to their tenths. -/
def Obligations.MeasurementFrameDecodesToTenths : Prop :=
  ∀ raw25 raw10 devId : Word,
    decodeFrame (measurementFrame raw25 raw10 devId) = some (raw25 / 10, raw10 / 10)

/-- R74: the offset for every capture and every PWM_UNDERFLOW. Spec's own decision in the rule: D7. -/
def Obligations.OffsetByUnderflowParameter : Prop :=
  ∀ c : Word,
    (2 ≤ c.toNat → ∀ u, offset u c = some (BitVec.ofNat 16 (c.toNat - 2)))
    ∧ (c.toNat < 2 →
        offset .wrap c = some (BitVec.ofNat 16 (65534 + c.toNat))
        ∧ offset .saturate c = some 0 ∧ offset .fault c = none)

/-! ## The primitives (R67, R68, R81) -/

/-- R67: arming posts one request, and changes nothing while one is pending. Spec's own decision in the rule: D11. -/
def Obligations.ArmRxPostsOneRequest : Prop :=
  ∀ s : State,
    (s.rxArmed = false → armRx s = { s with rxArmed := true, H := s.H ++ [.arm 10] })
    ∧ (s.rxArmed = true → armRx s = s)

/-- R68: a send records its bytes with the draw, whatever the draw, and answers the draw. Spec's own decision in the
rule: D9. -/
def Obligations.TxSendRecordsBytesAndDraw : Prop :=
  ∀ (bytes : List Byte) (s : State),
    txSend bytes s = (s.txStatus, { s with H := s.H ++ [.tx bytes s.txStatus] })

/-- R81: both values at once, and the store is marked written. Spec's own decision in the rule: D6. -/
def Obligations.StoreWriteWritesBothAtOnce : Prop :=
  ∀ (v25 v10 : Word) (s : State),
    storeWrite v25 v10 s = { s with pm25 := v25, pm10 := v10, storeValid := true }

/-! ## The Serial Session (41_serial_session.md) -/

/-- R69: INIT in MODE = UART, whole: what it sends, that it arms and sets `init` whatever the draw, its result, and
that nothing else changes. Spec's own decisions in the rule: D10, D13. -/
def Obligations.InitUartSendsPeriodZeroAndArms : Prop :=
  ∀ s : State, s.Unmarked → s.mode = .uart →
    exec .init s = .next { s with
      init := true
      rxArmed := true
      H := s.H ++ [.tx (setwpFrame 0) s.txStatus] ++ (if s.rxArmed then [] else [.arm 10])
      hostRes := s.hostRes ++ [okIfSent s.txStatus] }

/-- R79: INIT in MODE = PWM, by either row of its word, sets `init`, returns OK and changes nothing else. Spec's own
decisions in the rule: D13, D14. -/
def Obligations.InitPwmEnablesEdges : Prop :=
  ∀ s : State, s.Unmarked → s.mode = .pwm →
    exec .init s = .next { s with init := true, hostRes := s.hostRes ++ [.ok] }
    ∧ exec .initPwm s = .next { s with init := true, hostRes := s.hostRes ++ [.ok] }

/-- The model's reading (log 10): the row INIT_PWM in MODE = UART is the word `01`, hence R69's operation. -/
def Obligations.SharedInitWordInUartIsInit : Prop :=
  ∀ s : State, s.Unmarked → s.mode = .uart →
    exec .initPwm s = .next { s with
      init := true
      rxArmed := true
      H := s.H ++ [.tx (setwpFrame 0) s.txStatus] ++ (if s.rxArmed then [] else [.arm 10])
      hostRes := s.hostRes ++ [okIfSent s.txStatus] }

/-- R71: SETWP for every operand and every draw: the frame of the clamped period, the result, nothing else; and its
two refusals. Spec's own decisions in the rule: D3, D9, D12. -/
def Obligations.SetwpSendsClampedPeriod : Prop :=
  ∀ (p : Byte) (s : State), s.Unmarked →
    (s.mode = .uart → s.init = true →
      exec (.setwp p) s = .next { s with
        H := s.H ++ [.tx (setwpFrame (BitVec.ofNat 8 (min p.toNat 30))) s.txStatus]
        hostRes := s.hostRes ++ [okIfSent s.txStatus] })
    ∧ (s.mode ≠ .uart → exec (.setwp p) s = .next { s with refused := some .wrongMode })
    ∧ (s.mode = .uart → s.init = false → exec (.setwp p) s = .next { s with refused := some .notInitialised })

/-- R72: SLEEP: the sleep frame, the result, nothing else; and its two refusals. Spec's own decisions in the rule: D3,
D9, D12. -/
def Obligations.SleepSendsSleepFrame : Prop :=
  ∀ s : State, s.Unmarked →
    (s.mode = .uart → s.init = true →
      exec .sleep s = .next { s with
        H := s.H ++ [.tx sleepFrame s.txStatus]
        hostRes := s.hostRes ++ [okIfSent s.txStatus] })
    ∧ (s.mode ≠ .uart → exec .sleep s = .next { s with refused := some .wrongMode })
    ∧ (s.mode = .uart → s.init = false → exec .sleep s = .next { s with refused := some .notInitialised })

/-- R73: WAKE: the probe, the re-arm exactly after SENT where no request was pending, the result, nothing else; and
its two refusals. Spec's own decisions in the rule: D3, D9, D12, D30. -/
def Obligations.WakeSendsProbeAndRearmsAfterSent : Prop :=
  ∀ s : State, s.Unmarked →
    (s.mode = .uart → s.init = true →
      exec .wake s = .next { s with
        rxArmed := s.rxArmed || s.txStatus == .sent
        H := s.H ++ [.tx [0x01] s.txStatus]
          ++ (if s.txStatus = .sent ∧ s.rxArmed = false then [.arm 10] else [])
        hostRes := s.hostRes ++ [okIfSent s.txStatus] })
    ∧ (s.mode ≠ .uart → exec .wake s = .next { s with refused := some .wrongMode })
    ∧ (s.mode = .uart → s.init = false → exec .wake s = .next { s with refused := some .notInitialised })

/-- R66: the guard of SETWP, SLEEP and WAKE: a refused command changes the mark alone, WrongMode coming before
NotInitialised; past the guard the command goes through unmarked; and INIT, which runs no guard, always does. Spec's
own decisions in the rule: D3, D12. -/
def Obligations.CommandGuardRefuses : Prop :=
  (∀ (i : Instr) (s : State), isCommand i = true → s.Unmarked →
    (s.mode ≠ .uart → exec i s = .next { s with refused := some .wrongMode })
    ∧ (s.mode = .uart → s.init = false → exec i s = .next { s with refused := some .notInitialised })
    ∧ (s.mode = .uart → s.init = true → ∃ t, exec i s = .next t ∧ t.Unmarked))
  ∧ (∀ (i : Instr) (s : State), isInit i = true → s.Unmarked → ∃ t, exec i s = .next t ∧ t.Unmarked)

/-- R70: a delivery while armed: the buffer is replaced, a valid frame writes both values, an invalid one neither, and
one re-arm is emitted in either case; a delivery that is not enabled has no step. Spec's own decision in the rule:
D28. -/
def Obligations.RxdoneStoresValidFramesAndRearms : Prop :=
  ∀ (b : Bytes10) (s : State), s.Unmarked →
    (s.mode = .uart → s.rxArmed = true →
      (∀ v25 v10, decodeFrame b = some (v25, v10) →
        exec (.rxdone b) s = .next { s with
          rxBuf := b
          H := s.H ++ [.arm 10]
          pm25 := v25
          pm10 := v10
          storeValid := true })
      ∧ (decodeFrame b = none →
        exec (.rxdone b) s = .next { s with rxBuf := b, H := s.H ++ [.arm 10] }))
    ∧ (¬ (s.mode = .uart ∧ s.rxArmed = true) → ∀ t, exec (.rxdone b) s ≠ .next t)

/-- The wire row RX_MEAS as one delivery of its frame (R49, R61, R70; log 11): the tenths of its raw fields are
stored, whatever the device-id. -/
def Obligations.MeasurementFrameDeliveredIsStored : Prop :=
  ∀ (raw25 raw10 devId : Word) (s : State), s.Unmarked → s.mode = .uart → s.rxArmed = true →
    exec (.rxMeas raw25 raw10 devId) s = .next { s with
      rxBuf := measurementFrame raw25 raw10 devId
      H := s.H ++ [.arm 10]
      pm25 := raw25 / 10
      pm10 := raw10 / 10
      storeValid := true }

/-- R17 and R70's enabling condition: elsewhere a delivery has no step, which the model says by a refusal of its own
(log 9). -/
def Obligations.DeliveryHasNoStepUnlessArmed : Prop :=
  ∀ (i : Instr) (s : State), isDelivery i = true → s.Unmarked →
    ¬ (s.mode = .uart ∧ s.rxArmed = true) → exec i s = .refused .rxNotEnabled

/-- R101: while no delivery decodes, the store keeps its values, and every delivery is taken and re-armed. -/
def Obligations.UndecodedDeliveriesFreezeTheStore : Prop :=
  ∀ (bs : List Bytes10) (s : State), s.Unmarked → s.mode = .uart → s.rxArmed = true →
    (∀ b ∈ bs, decodeFrame b = none) →
    ∃ t, runInstrs (bs.map .rxdone) s = .next t
      ∧ t = { s with rxBuf := bs.getLastD s.rxBuf, H := s.H ++ List.replicate bs.length (.arm 10) }

/-- The outbound wire rows (R50 to R52, R68; log 12): where the block sends at all, the frame and the draw are
recorded and nothing else changes. -/
def Obligations.OutboundFramesAreRecorded : Prop :=
  ∀ s : State, s.Unmarked → s.mode = .uart → s.init = true →
    (∀ q : Byte, (Instr.txSetwp q).wf = true →
      exec (.txSetwp q) s = .next { s with H := s.H ++ [.tx (setwpFrame q) s.txStatus] })
    ∧ exec .txSleep s = .next { s with H := s.H ++ [.tx sleepFrame s.txStatus] }
    ∧ exec .txWake s = .next { s with H := s.H ++ [.tx [0x01] s.txStatus] }

/-- The outbound wire rows where no rule sends (R66, R69; log 12): no step. -/
def Obligations.OutboundFramesNeedSession : Prop :=
  ∀ s : State, s.Unmarked → ¬ (s.mode = .uart ∧ s.init = true) →
    (∀ q : Byte, exec (.txSetwp q) s = .refused .txNotEnabled)
    ∧ exec .txSleep s = .refused .txNotEnabled
    ∧ exec .txWake s = .refused .txNotEnabled

/-! ## The PWM Edge Sequencer (42_pwm_sequencer.md) -/

/-- R76: the first edge, whatever its operands and PWM_UNDERFLOW. -/
def Obligations.EdgeRiseResetsCounterAndTurnsPolarity : Prop :=
  ∀ (c10 c25 : Word) (s : State), s.Unmarked → s.mode = .pwm → s.init = true → s.pwmState = .awaitRise →
    exec (.edge c10 c25) s = .next { s with
      pwmState := .awaitFall1
      capPol := .falling
      H := s.H ++ [.counterReset, .setPolarity .falling] }

/-- R77: the second edge only moves the sequencer. -/
def Obligations.EdgeFirstFallOnlyMovesSequencer : Prop :=
  ∀ (c10 c25 : Word) (s : State), s.Unmarked → s.mode = .pwm → s.init = true → s.pwmState = .awaitFall1 →
    exec (.edge c10 c25) s = .next { s with pwmState := .awaitFall2 }

/-- R78: the third edge: both offset values are stored together and the cycle closes; a capture that Offset faults on
changes the mark alone. -/
def Obligations.EdgeSecondFallStoresOffsetPair : Prop :=
  ∀ (c10 c25 : Word) (s : State), s.Unmarked → s.mode = .pwm → s.init = true → s.pwmState = .awaitFall2 →
    (∀ v10 v25, offset s.params.pwmUnderflow c10 = some v10 → offset s.params.pwmUnderflow c25 = some v25 →
      exec (.edge c10 c25) s = .next { s with
        capPol := .rising
        H := s.H ++ [.setPolarity .rising]
        pm25 := v25
        pm10 := v10
        storeValid := true
        pwmState := .awaitRise })
    ∧ (s.params.pwmUnderflow = .fault → (c10.toNat < 2 ∨ c25.toNat < 2) →
      exec (.edge c10 c25) s = .next { s with fault := some .pwmUnderflow })

/-- The numbers of R74 and R78 put together, for every pair of captures: with both at least 2, or under WRAP, each
stored value is the count minus 2 modulo 2^16; under SATURATE it is the count minus 2, or 0. -/
def Obligations.EdgeStoresCountMinusTwo : Prop :=
  ∀ (c10 c25 : Word) (s : State), s.Unmarked → s.mode = .pwm → s.init = true → s.pwmState = .awaitFall2 →
    ((2 ≤ c10.toNat ∧ 2 ≤ c25.toNat) ∨ s.params.pwmUnderflow = .wrap →
      ∃ t, exec (.edge c10 c25) s = .next t ∧ t.Unmarked
        ∧ t.pm10.toNat = (c10.toNat + 65534) % 65536 ∧ t.pm25.toNat = (c25.toNat + 65534) % 65536)
    ∧ (s.params.pwmUnderflow = .saturate →
      ∃ t, exec (.edge c10 c25) s = .next t ∧ t.Unmarked
        ∧ t.pm10.toNat = c10.toNat - 2 ∧ t.pm25.toNat = c25.toNat - 2)

/-- R17 and R75's enabling condition: elsewhere an edge has no step, which the model says by a refusal of its own
(log 9). -/
def Obligations.EdgeHasNoStepUnlessEnabled : Prop :=
  ∀ (c10 c25 : Word) (s : State), s.Unmarked → ¬ (s.mode = .pwm ∧ s.init = true) →
    exec (.edge c10 c25) s = .refused .edgeNotEnabled

/-- The inference the spec writes as 42_pwm_sequencer.md R80 (derived from R76, R77 and R78): three edges from
AWAIT_RISE are one cycle whose store comes from the third event's operands alone, and any run of edges from AWAIT_RISE
that meets no fault stands in the state numbered by how many there were, modulo 3; where PWM_UNDERFLOW is not FAULT
every such run completes. -/
def Obligations.SequencerCountsEdgesModThree : Prop :=
  (∀ (a b c : Word × Word) (s : State), s.Unmarked → s.mode = .pwm → s.init = true → s.pwmState = .awaitRise →
    ∀ v10 v25, offset s.params.pwmUnderflow c.1 = some v10 → offset s.params.pwmUnderflow c.2 = some v25 →
      runInstrs [.edge a.1 a.2, .edge b.1 b.2, .edge c.1 c.2] s = .next { s with
        capPol := .rising
        H := s.H ++ [.counterReset, .setPolarity .falling, .setPolarity .rising]
        pm25 := v25
        pm10 := v10
        storeValid := true })
  ∧ (∀ (cs : List (Word × Word)) (s t : State), s.pwmState = .awaitRise →
      runInstrs (cs.map fun c => .edge c.1 c.2) s = .next t → t.fault = none →
      (pwmStateCode t.pwmState).toNat = cs.length % 3)
  ∧ (∀ (cs : List (Word × Word)) (s : State), s.Unmarked → s.mode = .pwm → s.init = true →
      s.params.pwmUnderflow ≠ .fault →
      ∃ t, runInstrs (cs.map fun c => .edge c.1 c.2) s = .next t ∧ t.fault = none)

/-! ## The Measurement Store (43_measurement_store.md) -/

/-- R82 and R83: each read returns the stored value and changes nothing but HOST_RES; before the first write under
STORE_RESET = UNWRITTEN it faults and changes the mark alone. Spec's own decision in the rule: D5. -/
def Obligations.StoreReadsReturnTheStore : Prop :=
  ∀ s : State, s.Unmarked →
    (s.params.storeReset = .zero ∨ s.storeValid = true →
      exec .getPm25 s = .next { s with hostRes := s.hostRes ++ [.value s.pm25] }
      ∧ exec .getPm10 s = .next { s with hostRes := s.hostRes ++ [.value s.pm10] })
    ∧ (s.params.storeReset = .unwritten ∧ s.storeValid = false →
      exec .getPm25 s = .next { s with fault := some .unwrittenRead }
      ∧ exec .getPm10 s = .next { s with fault := some .unwrittenRead })

/-- R84: what may write the store: a delivery in MODE = UART, EDGE in AWAIT_FALL2 in MODE = PWM, and RESET. The
measurement frame counts as a delivery by the model's reading (log 11). -/
def Obligations.StoreWrittenOnlyByItsModesWriter : Prop :=
  ∀ (i : Instr) (s t : State), exec i s = .next t →
    (t.pm25 = s.pm25 ∧ t.pm10 = s.pm10 ∧ t.storeValid = s.storeValid)
    ∨ (s.mode = .uart ∧ isDelivery i = true ∧ s.rxArmed = true)
    ∨ (s.mode = .pwm ∧ isEdge i = true ∧ s.pwmState = .awaitFall2)
    ∨ isReset i = true

/-- R43: between the two reads of a pair a delivery may replace both values: the pair then mixes two updates.
The delivery is the row RX_MEAS, a delivery of its frame by the model's reading (log 11). -/
def Obligations.PairReadMayStraddleUpdate : Prop :=
  ∀ (raw25 raw10 devId : Word) (s : State), s.Unmarked → s.mode = .uart → s.rxArmed = true →
    s.params.storeReset = .zero ∨ s.storeValid = true →
    ∃ t, runInstrs [.getPm25, .rxMeas raw25 raw10 devId, .getPm10] s = .next t
      ∧ t.hostRes = s.hostRes ++ [.value s.pm25, .value (raw10 / 10)]

/-! ## Marks, events and results (60_exceptions.md) -/

/-- R87: a step that marks changes nothing but the mark; a marked instance has no further step but RESET, and RESET
clears both marks. Spec's own decision in the rule: D23. -/
def Obligations.MarkedInstanceStepsOnlyByReset : Prop :=
  (∀ (i : Instr) (s t : State), s.Unmarked → exec i s = .next t →
    (∀ r, t.fault = some r → t = { s with fault := some r })
    ∧ (∀ r, t.refused = some r → t = { s with refused := some r }))
  ∧ (∀ (i : Instr) (s t : State), ¬ s.Unmarked → isReset i = false → exec i s ≠ .next t)
  ∧ (∀ s t : State, ¬ s.Unmarked → step s = .next t →
    ∃ x rest i, s.input = x :: rest ∧ decode s.mode x.level x.bytes = .ok i ∧ isReset i = true)
  ∧ (∀ (i : Instr) (s : State), isReset i = true → ∃ t, exec i s = .next t ∧ t.Unmarked)

/-- How the model stops a marked instance (log 1): with the reason recorded. -/
def Obligations.MarkedInstanceStopsWithItsReason : Prop :=
  ∀ (i : Instr) (s : State), isReset i = false →
    (∀ r, s.fault = some r → exec i s = .fault r)
    ∧ (∀ r, s.fault = none → s.refused = some r → exec i s = .refused (.marked r))

/-- R86: under the default parameters no step faults: from a state with no fault, neither an instruction nor a step of
the machine marks a fault or answers one. -/
def Obligations.DefaultsNeverFault : Prop :=
  ∀ s : State, s.params = Params.default → s.fault = none →
    (∀ i : Instr, (∀ t, exec i s = .next t → t.fault = none) ∧ ∀ r, exec i s ≠ .fault r)
    ∧ (∀ t, step s = .next t → t.fault = none) ∧ ∀ r, step s ≠ .fault r

/-- R17's HOST_RES: a host operation that is not refused and does not fault returns exactly one result; an event
returns none (log 8). -/
def Obligations.HostOperationsReturnOneResult : Prop :=
  ∀ (i : Instr) (s t : State), exec i s = .next t →
    (isHostOp i = true → t.Unmarked → ∃ r, t.hostRes = s.hostRes ++ [r])
    ∧ (isHostOp i = false → isReset i = false → t.hostRes = s.hostRes)

/-! ## State rules (10_state.md) -/

/-- R19: `init` is set by INIT and cleared by RESET, and by nothing else. Spec's own decision in the rule: D12. -/
def Obligations.InitSetByInitAndClearedByReset : Prop :=
  ∀ (i : Instr) (s t : State), exec i s = .next t →
    (isInit i = true → t.init = true) ∧ (isReset i = true → t.init = false)
    ∧ (isInit i = false → isReset i = false → t.init = s.init)

/-- R24 and R25: only EDGE and RESET change the sequencer state or the polarity. -/
def Obligations.SequencerMovedOnlyByEdge : Prop :=
  ∀ (i : Instr) (s t : State), exec i s = .next t → isEdge i = false → isReset i = false →
    t.pwmState = s.pwmState ∧ t.capPol = s.capPol

/-- R26: the history is append-only, and RESET empties it. Spec's own decision in the rule: D24. -/
def Obligations.HistoryIsAppendOnly : Prop :=
  ∀ (i : Instr) (s t : State), exec i s = .next t →
    (isReset i = false → s.H <+: t.H) ∧ (isReset i = true → t.H = [])

/-- The inference the spec writes as 10_state.md R33 ("In MODE = UART, after the first INIT, `st.rx_armed` = true
between steps", derived from R67, R69 and R70): it holds at reset and every step keeps it. -/
def Obligations.ReceiveStaysArmedOnceInitialised : Prop :=
  ArmedOnceInitialised State.reset
  ∧ ∀ s t : State, ArmedOnceInitialised s → step s = .next t → ArmedOnceInitialised t

/-- The inference the spec writes as 10_state.md R34 ("Between steps, `st.cap_pol` = RISING exactly when
`st.pwm_state` = AWAIT_RISE", derived from R76, R77 and R78): it holds at reset and every step keeps it. -/
def Obligations.PolarityFollowsSequencer : Prop :=
  PolarityFollowsState State.reset
  ∧ ∀ s t : State, PolarityFollowsState s → step s = .next t → PolarityFollowsState t

/-- The invariant of the block holds at reset (R97, R99). -/
def Obligations.ResetMeetsInvariant : Prop := BlockInvariant State.reset

/-- Every step keeps the invariant of the block: R33, R34, the quiet before INIT, the modes kept apart, the history's
frames, the grounds of the marks, the range of the store. -/
def Obligations.StepKeepsInvariant : Prop :=
  ∀ s t : State, BlockInvariant s → step s = .next t → BlockInvariant t

/-! ## Reset and configuration (70_reset_and_hazards.md) -/

/-- R97: RESET(m), from any state, marked ones too: MODE is `m`, every field of the block is at its reset value, and
nothing is emitted. `rx_buf`, and the store under UNWRITTEN, are left free. Spec's own decisions in the rule: D3, D5,
D11, D12, D15, D23, D24, D32. -/
def Obligations.ResetRestoresEveryField : Prop :=
  ∀ (i : Instr) (m : Mode) (s : State), (i = .resetUart ∧ m = .uart) ∨ (i = .resetPwm ∧ m = .pwm) →
    ∃ t, exec i s = .next t ∧ t.mode = m ∧ t.init = false
      ∧ (s.params.storeReset = .zero → t.pm25 = 0 ∧ t.pm10 = 0)
      ∧ t.storeValid = false ∧ t.rxArmed = false ∧ t.pwmState = .awaitRise ∧ t.capPol = .rising
      ∧ t.H = [] ∧ t.fault = none ∧ t.refused = none

/-- The fields of the reset state that R18 and R97 give, under the default STORE_RESET = ZERO. Spec's own decisions in
the rule: D5, D11, D12, D15, D23, D24. -/
def Obligations.ResetStateHasSpecValues : Prop :=
  let s := State.reset
  s.init = false ∧ s.pm25 = 0 ∧ s.pm10 = 0 ∧ s.storeValid = false ∧ s.rxArmed = false
  ∧ s.pwmState = .awaitRise ∧ s.capPol = .rising ∧ s.H = [] ∧ s.fault = none ∧ s.refused = none
  ∧ s.params.storeReset = .zero ∧ s.params.pwmUnderflow = .wrap

/-- R98: MODE changes only at RESET. Spec's own decision in the rule: D3. -/
def Obligations.ModeChangesOnlyAtReset : Prop :=
  ∀ (i : Instr) (s t : State), exec i s = .next t →
    (isReset i = false → t.mode = s.mode)
    ∧ (i = .resetUart → t.mode = .uart) ∧ (i = .resetPwm → t.mode = .pwm)

/-- R6 and R7: no step changes the parameters (log 4). -/
def Obligations.ParametersAreConstant : Prop :=
  ∀ s t : State, step s = .next t → t.params = s.params

/-! ## Encoding and the step (30_encoding.md) -/

/-- Words written out from R57 and R49 to R52 decode to the instructions they stand for; the examples of
95_test_vectors.md P1 to P3 and W1 are among them. -/
def Obligations.SampleWordsDecode : Prop :=
  decode .uart .op [0x01] = .ok .init
  ∧ decode .pwm .op [0x01] = .ok .initPwm
  ∧ decode .uart .op [0x02, 0x2D] = .ok (.setwp 45)
  ∧ decode .pwm .op [0x11, 0xF6, 0x01, 0x2E, 0x01] = .ok (.edge 502 302)
  ∧ decode .uart .op [0x1F, 0x01] = .ok .resetPwm
  ∧ decode .uart .wireIn [0xAA, 0xC0, 0x2C, 0x01, 0x58, 0x02, 0x00, 0x00, 0x87, 0xAB] = .ok (.rxMeas 300 600 0)
  ∧ decode .uart .wireOut sleepFrame = .ok .txSleep
  ∧ decode .uart .op [0x07] = .error (.unassigned 0x07)

/-- Every well-formed instruction that the mode selects is read back from its encoding. -/
def Obligations.DecodeOfEncode : Prop :=
  ∀ (m : Mode) (i : Instr), i.wf = true → i.selectedIn m = true →
    decode m (encode i).1 (encode i).2 = .ok i

/-- The other direction: bytes that decode are the encoding of what they decode to, which is well-formed and selected
by the mode; ten inbound bytes that are no measurement frame are RXDONE's operand. -/
def Obligations.EncodeOfDecode : Prop :=
  ∀ (m : Mode) (level : Level) (bytes : List Byte) (i : Instr), decode m level bytes = .ok i →
    i.wf = true ∧ i.selectedIn m = true
    ∧ (encode i = (level, bytes)
      ∨ (level = .wireIn ∧ ∃ b, i = .rxdone b ∧ bytes10List b = bytes ∧ decodeFrame b = none))

/-- R58 and R57: an opcode byte R57 does not list, an operation cut short, and a RESET operand other than 00 and 01,
are refused with UnknownOp, and the mark alone changes beside the input taken. -/
def Obligations.UnknownOperationsAreRefused : Prop :=
  ∀ (s : State) (x : Input) (rest : List Input), s.Unmarked → s.input = x :: rest → x.level = .op →
    ((∃ op args, x.bytes = op :: args
        ∧ op ∉ [0x01, 0x02, 0x03, 0x04, 0x05, 0x06, 0x10, 0x11, (0x1F : Byte)])
      ∨ (∃ i, (encode i).1 = .op ∧ x.bytes <+: (encode i).2 ∧ x.bytes ≠ (encode i).2)
      ∨ (∃ m, x.bytes = [0x1F, m] ∧ m ≠ 0x00 ∧ m ≠ 0x01)) →
    step s = .next { s with input := rest, txStatus := x.status, refused := some .unknownOp }

/-- A step runs the decoded instruction: the next input is taken, its draw presented, its bytes decoded in the present
MODE, and exec runs what they spell; with no input an unmarked block waits (log 2, log 15). -/
def Obligations.StepRunsDecodedInstruction : Prop :=
  (∀ (s : State) (x : Input) (rest : List Input) (i : Instr), s.input = x :: rest →
    decode s.mode x.level x.bytes = .ok i →
    step s = exec i { s with input := rest, txStatus := x.status })
  ∧ (∀ s : State, s.Unmarked → s.input = [] → step s = .next s)

/-- The host's table word placed as the next input is run by the next step, its draw SENT (log 2). -/
def Obligations.TableWordRunsNext : Prop :=
  ∀ (s : State) (nbits w : Nat) (i : Instr), s.mode = .uart → decodeTableWord nbits w = some i →
    step (s.withFetchWord nbits w) = exec i { s with txStatus := .sent }

/-- R59, line by line: the bytes each line stands for decode to the instructions written here, with the draws written
here. RXMEAS is the one delivery of R59's frame, its checksum the sum of its six payload bytes modulo 256; PWMCYCLE is
three edges. A line without a draw has SENT. The lines read the same in both modes but for INIT, whose row the mode
selects (log 10). -/
def Obligations.ProgramLinesDecodeToTheirSteps : Prop :=
  ∀ (st : TxStatus) (p : Byte) (b : Bytes10) (a c d : Word),
    (∀ m : Mode,
      LineSpells m (.reset .uart) [(.resetUart, .sent)]
      ∧ LineSpells m (.reset .pwm) [(.resetPwm, .sent)]
      ∧ LineSpells m (.setwp p st) [(.setwp p, st)]
      ∧ LineSpells m (.sleep st) [(.sleep, st)]
      ∧ LineSpells m (.wake st) [(.wake, st)]
      ∧ LineSpells m .getPm25 [(.getPm25, .sent)]
      ∧ LineSpells m .getPm10 [(.getPm10, .sent)]
      ∧ LineSpells m (.rxdone b) [(.rxdone b, .sent)]
      ∧ LineSpells m (.edge a c) [(.edge a c, .sent)]
      ∧ LineSpells m (.rxmeas a c d)
          [(.rxdone ⟨0xAA, 0xC0, lo a, hi a, lo c, hi c, lo d, hi d,
            lo a + hi a + lo c + hi c + lo d + hi d, 0xAB⟩, .sent)]
      ∧ LineSpells m (.pwmcycle a c) [(.edge 0 0, .sent), (.edge 0 0, .sent), (.edge a c, .sent)])
    ∧ LineSpells .uart (.init st) [(.init, st)]
    ∧ LineSpells .pwm (.init st) [(.initPwm, st)]

/-! ## Ordering and isolation (00_scope.md R11, 20_memory.md) -/

/-- Every step takes exactly the first pending input and leaves the others as they were (log 2). -/
def Obligations.StepTakesOneInputInOrder : Prop :=
  ∀ s t : State, step s = .next t → t.input = s.input.tail

/-- R42: what an instruction does depends on the state left by the step before it, and not on what any agent will do
next. RESET is compared under the same free values (log 23). -/
def Obligations.PendingInputsDoNotMatter : Prop :=
  ∀ (i : Instr) (s t : State) (pending : List Input), exec i s = .next t →
    exec i { s with input := pending } = .next { t with input := pending }

/-- R68: an instruction that sends nothing neither reads nor writes the TX transport's answer. RESET is
compared under the same free values (log 23). -/
def Obligations.DrawMattersOnlyToSends : Prop :=
  ∀ (i : Instr) (s t : State) (draw : TxStatus), isSend i = false → exec i s = .next t →
    exec i { s with txStatus := draw } = .next { t with txStatus := draw }

/-- R106: a blocking operation and a delivery, as whole steps in either order, end in the same state but for the order
of what was emitted: the one step the model makes of a blocking send loses no behaviour. -/
def Obligations.SendsAndDeliveriesCommute : Prop :=
  ∀ (i : Instr) (b : Bytes10) (s : State), isCommand i = true ∨ i = .init →
    s.Unmarked → s.mode = .uart → s.init = true → s.rxArmed = true →
    ∃ t u, runInstrs [i, .rxdone b] s = .next t ∧ runInstrs [.rxdone b, i] s = .next u
      ∧ u = { t with H := u.H } ∧ u.H.Perm t.H

/-- R11: a copy's step changes that copy alone, and what it does is that copy's own step, whatever the others hold. -/
def Obligations.InstancesShareNothing : Prop :=
  ∀ (k : Nat) (copies : List State) (s : State), copies[k]? = some s →
    (∀ t, step s = .next t →
      ∃ after, stepInstance k copies = some (.next after) ∧ after.length = copies.length
        ∧ after[k]? = some t ∧ ∀ j, j ≠ k → after[j]? = copies[j]?)
    ∧ (∀ r, step s = .fault r → stepInstance k copies = some (.fault r))
    ∧ (∀ r, step s = .refused r → stepInstance k copies = some (.refused r))
end

