-- ==== Sys2Proof/Laws/State.lean ====
section
/-! SUPPORT. One lemma per field per update of State, so that no proof unfolds a record update. -/

namespace Sys2Proof.Machine

/-! ### emit -/

@[simp] theorem emit_mode (o : Out) (s : State) : (emit o s).mode = s.mode := rfl
@[simp] theorem emit_params (o : Out) (s : State) : (emit o s).params = s.params := rfl
@[simp] theorem emit_init (o : Out) (s : State) : (emit o s).init = s.init := rfl
@[simp] theorem emit_pm25 (o : Out) (s : State) : (emit o s).pm25 = s.pm25 := rfl
@[simp] theorem emit_pm10 (o : Out) (s : State) : (emit o s).pm10 = s.pm10 := rfl
@[simp] theorem emit_storeValid (o : Out) (s : State) : (emit o s).storeValid = s.storeValid := rfl
@[simp] theorem emit_rxBuf (o : Out) (s : State) : (emit o s).rxBuf = s.rxBuf := rfl
@[simp] theorem emit_rxArmed (o : Out) (s : State) : (emit o s).rxArmed = s.rxArmed := rfl
@[simp] theorem emit_pwmState (o : Out) (s : State) : (emit o s).pwmState = s.pwmState := rfl
@[simp] theorem emit_capPol (o : Out) (s : State) : (emit o s).capPol = s.capPol := rfl
@[simp] theorem emit_H (o : Out) (s : State) : (emit o s).H = s.H ++ [o] := rfl
@[simp] theorem emit_fault (o : Out) (s : State) : (emit o s).fault = s.fault := rfl
@[simp] theorem emit_refused (o : Out) (s : State) : (emit o s).refused = s.refused := rfl
@[simp] theorem emit_hostRes (o : Out) (s : State) : (emit o s).hostRes = s.hostRes := rfl
@[simp] theorem emit_txStatus (o : Out) (s : State) : (emit o s).txStatus = s.txStatus := rfl
@[simp] theorem emit_input (o : Out) (s : State) : (emit o s).input = s.input := rfl
@[simp] theorem emit_freeDraws (o : Out) (s : State) : (emit o s).freeDraws = s.freeDraws := rfl

/-! ### reply -/

@[simp] theorem reply_mode (r : HostResult) (s : State) : (reply r s).mode = s.mode := rfl
@[simp] theorem reply_params (r : HostResult) (s : State) : (reply r s).params = s.params := rfl
@[simp] theorem reply_init (r : HostResult) (s : State) : (reply r s).init = s.init := rfl
@[simp] theorem reply_pm25 (r : HostResult) (s : State) : (reply r s).pm25 = s.pm25 := rfl
@[simp] theorem reply_pm10 (r : HostResult) (s : State) : (reply r s).pm10 = s.pm10 := rfl
@[simp] theorem reply_storeValid (r : HostResult) (s : State) : (reply r s).storeValid = s.storeValid := rfl
@[simp] theorem reply_rxBuf (r : HostResult) (s : State) : (reply r s).rxBuf = s.rxBuf := rfl
@[simp] theorem reply_rxArmed (r : HostResult) (s : State) : (reply r s).rxArmed = s.rxArmed := rfl
@[simp] theorem reply_pwmState (r : HostResult) (s : State) : (reply r s).pwmState = s.pwmState := rfl
@[simp] theorem reply_capPol (r : HostResult) (s : State) : (reply r s).capPol = s.capPol := rfl
@[simp] theorem reply_H (r : HostResult) (s : State) : (reply r s).H = s.H := rfl
@[simp] theorem reply_fault (r : HostResult) (s : State) : (reply r s).fault = s.fault := rfl
@[simp] theorem reply_refused (r : HostResult) (s : State) : (reply r s).refused = s.refused := rfl
@[simp] theorem reply_hostRes (r : HostResult) (s : State) : (reply r s).hostRes = s.hostRes ++ [r] := rfl
@[simp] theorem reply_txStatus (r : HostResult) (s : State) : (reply r s).txStatus = s.txStatus := rfl
@[simp] theorem reply_input (r : HostResult) (s : State) : (reply r s).input = s.input := rfl
@[simp] theorem reply_freeDraws (r : HostResult) (s : State) : (reply r s).freeDraws = s.freeDraws := rfl

/-! ### storeWrite -/

@[simp] theorem storeWrite_mode (v25 v10 : Word) (s : State) : (storeWrite v25 v10 s).mode = s.mode := rfl
@[simp] theorem storeWrite_params (v25 v10 : Word) (s : State) : (storeWrite v25 v10 s).params = s.params := rfl
@[simp] theorem storeWrite_init (v25 v10 : Word) (s : State) : (storeWrite v25 v10 s).init = s.init := rfl
@[simp] theorem storeWrite_pm25 (v25 v10 : Word) (s : State) : (storeWrite v25 v10 s).pm25 = v25 := rfl
@[simp] theorem storeWrite_pm10 (v25 v10 : Word) (s : State) : (storeWrite v25 v10 s).pm10 = v10 := rfl
@[simp] theorem storeWrite_storeValid (v25 v10 : Word) (s : State) : (storeWrite v25 v10 s).storeValid = true := rfl
@[simp] theorem storeWrite_rxBuf (v25 v10 : Word) (s : State) : (storeWrite v25 v10 s).rxBuf = s.rxBuf := rfl
@[simp] theorem storeWrite_rxArmed (v25 v10 : Word) (s : State) : (storeWrite v25 v10 s).rxArmed = s.rxArmed := rfl
@[simp] theorem storeWrite_pwmState (v25 v10 : Word) (s : State) : (storeWrite v25 v10 s).pwmState = s.pwmState := rfl
@[simp] theorem storeWrite_capPol (v25 v10 : Word) (s : State) : (storeWrite v25 v10 s).capPol = s.capPol := rfl
@[simp] theorem storeWrite_H (v25 v10 : Word) (s : State) : (storeWrite v25 v10 s).H = s.H := rfl
@[simp] theorem storeWrite_fault (v25 v10 : Word) (s : State) : (storeWrite v25 v10 s).fault = s.fault := rfl
@[simp] theorem storeWrite_refused (v25 v10 : Word) (s : State) : (storeWrite v25 v10 s).refused = s.refused := rfl
@[simp] theorem storeWrite_hostRes (v25 v10 : Word) (s : State) : (storeWrite v25 v10 s).hostRes = s.hostRes := rfl
@[simp] theorem storeWrite_txStatus (v25 v10 : Word) (s : State) : (storeWrite v25 v10 s).txStatus = s.txStatus := rfl
@[simp] theorem storeWrite_input (v25 v10 : Word) (s : State) : (storeWrite v25 v10 s).input = s.input := rfl
@[simp] theorem storeWrite_freeDraws (v25 v10 : Word) (s : State) : (storeWrite v25 v10 s).freeDraws = s.freeDraws := rfl

/-! ### armRx: the request and its emission are the two fields it may change -/

@[simp] theorem armRx_rxArmed (s : State) : (armRx s).rxArmed = true := by
  unfold armRx; split <;> simp_all

theorem armRx_H (s : State) : (armRx s).H = s.H ++ (if s.rxArmed then [] else [.arm 10]) := by
  unfold armRx; split <;> simp_all [rxFrameLen]

@[simp] theorem armRx_mode (s : State) : (armRx s).mode = s.mode := by unfold armRx; split <;> rfl
@[simp] theorem armRx_params (s : State) : (armRx s).params = s.params := by unfold armRx; split <;> rfl
@[simp] theorem armRx_init (s : State) : (armRx s).init = s.init := by unfold armRx; split <;> rfl
@[simp] theorem armRx_pm25 (s : State) : (armRx s).pm25 = s.pm25 := by unfold armRx; split <;> rfl
@[simp] theorem armRx_pm10 (s : State) : (armRx s).pm10 = s.pm10 := by unfold armRx; split <;> rfl
@[simp] theorem armRx_storeValid (s : State) : (armRx s).storeValid = s.storeValid := by unfold armRx; split <;> rfl
@[simp] theorem armRx_rxBuf (s : State) : (armRx s).rxBuf = s.rxBuf := by unfold armRx; split <;> rfl
@[simp] theorem armRx_pwmState (s : State) : (armRx s).pwmState = s.pwmState := by unfold armRx; split <;> rfl
@[simp] theorem armRx_capPol (s : State) : (armRx s).capPol = s.capPol := by unfold armRx; split <;> rfl
@[simp] theorem armRx_fault (s : State) : (armRx s).fault = s.fault := by unfold armRx; split <;> rfl
@[simp] theorem armRx_refused (s : State) : (armRx s).refused = s.refused := by unfold armRx; split <;> rfl
@[simp] theorem armRx_hostRes (s : State) : (armRx s).hostRes = s.hostRes := by unfold armRx; split <;> rfl
@[simp] theorem armRx_txStatus (s : State) : (armRx s).txStatus = s.txStatus := by unfold armRx; split <;> rfl
@[simp] theorem armRx_input (s : State) : (armRx s).input = s.input := by unfold armRx; split <;> rfl
@[simp] theorem armRx_freeDraws (s : State) : (armRx s).freeDraws = s.freeDraws := by unfold armRx; split <;> rfl

/-! ### txSend -/

@[simp] theorem txSend_fst (b : List Byte) (s : State) : (txSend b s).1 = s.txStatus := rfl
@[simp] theorem txSend_snd (b : List Byte) (s : State) : (txSend b s).2 = emit (.tx b s.txStatus) s := rfl

/-! ### resetTo -/

@[simp] theorem resetTo_mode (m : Mode) (s : State) : (resetTo m s).mode = m := rfl
@[simp] theorem resetTo_params (m : Mode) (s : State) : (resetTo m s).params = s.params := rfl
@[simp] theorem resetTo_init (m : Mode) (s : State) : (resetTo m s).init = false := rfl
@[simp] theorem resetTo_storeValid (m : Mode) (s : State) : (resetTo m s).storeValid = false := rfl
@[simp] theorem resetTo_rxArmed (m : Mode) (s : State) : (resetTo m s).rxArmed = false := rfl
@[simp] theorem resetTo_pwmState (m : Mode) (s : State) : (resetTo m s).pwmState = .awaitRise := rfl
@[simp] theorem resetTo_capPol (m : Mode) (s : State) : (resetTo m s).capPol = .rising := rfl
@[simp] theorem resetTo_H (m : Mode) (s : State) : (resetTo m s).H = [] := rfl
@[simp] theorem resetTo_fault (m : Mode) (s : State) : (resetTo m s).fault = none := rfl
@[simp] theorem resetTo_refused (m : Mode) (s : State) : (resetTo m s).refused = none := rfl
@[simp] theorem resetTo_hostRes (m : Mode) (s : State) : (resetTo m s).hostRes = [] := rfl
@[simp] theorem resetTo_txStatus (m : Mode) (s : State) : (resetTo m s).txStatus = s.txStatus := rfl
@[simp] theorem resetTo_input (m : Mode) (s : State) : (resetTo m s).input = s.input := rfl
@[simp] theorem resetTo_freeDraws (m : Mode) (s : State) : (resetTo m s).freeDraws = s.freeDraws + 1 := rfl

theorem resetTo_pm25 (m : Mode) (s : State) : (resetTo m s).pm25 =
    if s.params.storeReset = .zero then 0 else Config.freeStoreWord s.freeDraws 0 := by
  unfold resetTo; cases h : s.params.storeReset <;> simp

theorem resetTo_pm10 (m : Mode) (s : State) : (resetTo m s).pm10 =
    if s.params.storeReset = .zero then 0 else Config.freeStoreWord s.freeDraws 1 := by
  unfold resetTo; cases h : s.params.storeReset <;> simp

end Sys2Proof.Machine
end

