-- ==== Sys2Proof/Laws/Session.lean ====
section
/-! SUPPORT. One lemma per field per composed operation: the sends, INIT, a delivery, the edges. -/

namespace Sys2Proof.Machine

/-! ### sendAndReply -/

@[simp] theorem sendAndReply_mode (bytes : List Byte) (s : State) :
    (sendAndReply bytes s).mode = s.mode := rfl
@[simp] theorem sendAndReply_params (bytes : List Byte) (s : State) :
    (sendAndReply bytes s).params = s.params := rfl
@[simp] theorem sendAndReply_init (bytes : List Byte) (s : State) :
    (sendAndReply bytes s).init = s.init := rfl
@[simp] theorem sendAndReply_pm25 (bytes : List Byte) (s : State) :
    (sendAndReply bytes s).pm25 = s.pm25 := rfl
@[simp] theorem sendAndReply_pm10 (bytes : List Byte) (s : State) :
    (sendAndReply bytes s).pm10 = s.pm10 := rfl
@[simp] theorem sendAndReply_storeValid (bytes : List Byte) (s : State) :
    (sendAndReply bytes s).storeValid = s.storeValid := rfl
@[simp] theorem sendAndReply_rxBuf (bytes : List Byte) (s : State) :
    (sendAndReply bytes s).rxBuf = s.rxBuf := rfl
@[simp] theorem sendAndReply_rxArmed (bytes : List Byte) (s : State) :
    (sendAndReply bytes s).rxArmed = s.rxArmed := rfl
@[simp] theorem sendAndReply_pwmState (bytes : List Byte) (s : State) :
    (sendAndReply bytes s).pwmState = s.pwmState := rfl
@[simp] theorem sendAndReply_capPol (bytes : List Byte) (s : State) :
    (sendAndReply bytes s).capPol = s.capPol := rfl
@[simp] theorem sendAndReply_H (bytes : List Byte) (s : State) :
    (sendAndReply bytes s).H = s.H ++ [.tx bytes s.txStatus] := rfl
@[simp] theorem sendAndReply_fault (bytes : List Byte) (s : State) :
    (sendAndReply bytes s).fault = s.fault := rfl
@[simp] theorem sendAndReply_refused (bytes : List Byte) (s : State) :
    (sendAndReply bytes s).refused = s.refused := rfl
@[simp] theorem sendAndReply_hostRes (bytes : List Byte) (s : State) :
    (sendAndReply bytes s).hostRes = s.hostRes ++ [sendResult s.txStatus] := rfl
@[simp] theorem sendAndReply_txStatus (bytes : List Byte) (s : State) :
    (sendAndReply bytes s).txStatus = s.txStatus := rfl
@[simp] theorem sendAndReply_input (bytes : List Byte) (s : State) :
    (sendAndReply bytes s).input = s.input := rfl
@[simp] theorem sendAndReply_freeDraws (bytes : List Byte) (s : State) :
    (sendAndReply bytes s).freeDraws = s.freeDraws := rfl

/-! ### initUart -/

@[simp] theorem initUart_mode (s : State) :
    (initUart s).mode = s.mode := by simp [initUart]
@[simp] theorem initUart_params (s : State) :
    (initUart s).params = s.params := by simp [initUart]
@[simp] theorem initUart_init (s : State) :
    (initUart s).init = true := by simp [initUart]
@[simp] theorem initUart_pm25 (s : State) :
    (initUart s).pm25 = s.pm25 := by simp [initUart]
@[simp] theorem initUart_pm10 (s : State) :
    (initUart s).pm10 = s.pm10 := by simp [initUart]
@[simp] theorem initUart_storeValid (s : State) :
    (initUart s).storeValid = s.storeValid := by simp [initUart]
@[simp] theorem initUart_rxBuf (s : State) :
    (initUart s).rxBuf = s.rxBuf := by simp [initUart]
@[simp] theorem initUart_rxArmed (s : State) :
    (initUart s).rxArmed = true := by simp [initUart]
@[simp] theorem initUart_pwmState (s : State) :
    (initUart s).pwmState = s.pwmState := by simp [initUart]
@[simp] theorem initUart_capPol (s : State) :
    (initUart s).capPol = s.capPol := by simp [initUart]
@[simp] theorem initUart_H (s : State) :
    (initUart s).H = s.H ++ [.tx (encodeSetWorkingPeriod 0) s.txStatus] ++ (if s.rxArmed then [] else [.arm 10]) := by
  cases h : s.rxArmed <;> simp [initUart, armRx_H, h]
@[simp] theorem initUart_fault (s : State) :
    (initUart s).fault = s.fault := by simp [initUart]
@[simp] theorem initUart_refused (s : State) :
    (initUart s).refused = s.refused := by simp [initUart]
@[simp] theorem initUart_hostRes (s : State) :
    (initUart s).hostRes = s.hostRes ++ [sendResult s.txStatus] := by simp [initUart]
@[simp] theorem initUart_txStatus (s : State) :
    (initUart s).txStatus = s.txStatus := by simp [initUart]
@[simp] theorem initUart_input (s : State) :
    (initUart s).input = s.input := by simp [initUart]
@[simp] theorem initUart_freeDraws (s : State) :
    (initUart s).freeDraws = s.freeDraws := by simp [initUart]

/-! ### initPwm -/

@[simp] theorem initPwm_mode (s : State) :
    (initPwm s).mode = s.mode := rfl
@[simp] theorem initPwm_params (s : State) :
    (initPwm s).params = s.params := rfl
@[simp] theorem initPwm_init (s : State) :
    (initPwm s).init = true := rfl
@[simp] theorem initPwm_pm25 (s : State) :
    (initPwm s).pm25 = s.pm25 := rfl
@[simp] theorem initPwm_pm10 (s : State) :
    (initPwm s).pm10 = s.pm10 := rfl
@[simp] theorem initPwm_storeValid (s : State) :
    (initPwm s).storeValid = s.storeValid := rfl
@[simp] theorem initPwm_rxBuf (s : State) :
    (initPwm s).rxBuf = s.rxBuf := rfl
@[simp] theorem initPwm_rxArmed (s : State) :
    (initPwm s).rxArmed = s.rxArmed := rfl
@[simp] theorem initPwm_pwmState (s : State) :
    (initPwm s).pwmState = s.pwmState := rfl
@[simp] theorem initPwm_capPol (s : State) :
    (initPwm s).capPol = s.capPol := rfl
@[simp] theorem initPwm_H (s : State) :
    (initPwm s).H = s.H := rfl
@[simp] theorem initPwm_fault (s : State) :
    (initPwm s).fault = s.fault := rfl
@[simp] theorem initPwm_refused (s : State) :
    (initPwm s).refused = s.refused := rfl
@[simp] theorem initPwm_hostRes (s : State) :
    (initPwm s).hostRes = s.hostRes ++ [.ok] := rfl
@[simp] theorem initPwm_txStatus (s : State) :
    (initPwm s).txStatus = s.txStatus := rfl
@[simp] theorem initPwm_input (s : State) :
    (initPwm s).input = s.input := rfl
@[simp] theorem initPwm_freeDraws (s : State) :
    (initPwm s).freeDraws = s.freeDraws := rfl

/-! ### edgeRise -/

@[simp] theorem edgeRise_mode (s : State) :
    (edgeRise s).mode = s.mode := by simp [edgeRise]
@[simp] theorem edgeRise_params (s : State) :
    (edgeRise s).params = s.params := by simp [edgeRise]
@[simp] theorem edgeRise_init (s : State) :
    (edgeRise s).init = s.init := by simp [edgeRise]
@[simp] theorem edgeRise_pm25 (s : State) :
    (edgeRise s).pm25 = s.pm25 := by simp [edgeRise]
@[simp] theorem edgeRise_pm10 (s : State) :
    (edgeRise s).pm10 = s.pm10 := by simp [edgeRise]
@[simp] theorem edgeRise_storeValid (s : State) :
    (edgeRise s).storeValid = s.storeValid := by simp [edgeRise]
@[simp] theorem edgeRise_rxBuf (s : State) :
    (edgeRise s).rxBuf = s.rxBuf := by simp [edgeRise]
@[simp] theorem edgeRise_rxArmed (s : State) :
    (edgeRise s).rxArmed = s.rxArmed := by simp [edgeRise]
@[simp] theorem edgeRise_pwmState (s : State) :
    (edgeRise s).pwmState = .awaitFall1 := by simp [edgeRise]
@[simp] theorem edgeRise_capPol (s : State) :
    (edgeRise s).capPol = .falling := by simp [edgeRise]
@[simp] theorem edgeRise_H (s : State) :
    (edgeRise s).H = s.H ++ [.counterReset, .setPolarity .falling] := by simp [edgeRise]
@[simp] theorem edgeRise_fault (s : State) :
    (edgeRise s).fault = s.fault := by simp [edgeRise]
@[simp] theorem edgeRise_refused (s : State) :
    (edgeRise s).refused = s.refused := by simp [edgeRise]
@[simp] theorem edgeRise_hostRes (s : State) :
    (edgeRise s).hostRes = s.hostRes := by simp [edgeRise]
@[simp] theorem edgeRise_txStatus (s : State) :
    (edgeRise s).txStatus = s.txStatus := by simp [edgeRise]
@[simp] theorem edgeRise_input (s : State) :
    (edgeRise s).input = s.input := by simp [edgeRise]
@[simp] theorem edgeRise_freeDraws (s : State) :
    (edgeRise s).freeDraws = s.freeDraws := by simp [edgeRise]

/-! ### edgeFall1 -/

@[simp] theorem edgeFall1_mode (s : State) :
    (edgeFall1 s).mode = s.mode := rfl
@[simp] theorem edgeFall1_params (s : State) :
    (edgeFall1 s).params = s.params := rfl
@[simp] theorem edgeFall1_init (s : State) :
    (edgeFall1 s).init = s.init := rfl
@[simp] theorem edgeFall1_pm25 (s : State) :
    (edgeFall1 s).pm25 = s.pm25 := rfl
@[simp] theorem edgeFall1_pm10 (s : State) :
    (edgeFall1 s).pm10 = s.pm10 := rfl
@[simp] theorem edgeFall1_storeValid (s : State) :
    (edgeFall1 s).storeValid = s.storeValid := rfl
@[simp] theorem edgeFall1_rxBuf (s : State) :
    (edgeFall1 s).rxBuf = s.rxBuf := rfl
@[simp] theorem edgeFall1_rxArmed (s : State) :
    (edgeFall1 s).rxArmed = s.rxArmed := rfl
@[simp] theorem edgeFall1_pwmState (s : State) :
    (edgeFall1 s).pwmState = .awaitFall2 := rfl
@[simp] theorem edgeFall1_capPol (s : State) :
    (edgeFall1 s).capPol = s.capPol := rfl
@[simp] theorem edgeFall1_H (s : State) :
    (edgeFall1 s).H = s.H := rfl
@[simp] theorem edgeFall1_fault (s : State) :
    (edgeFall1 s).fault = s.fault := rfl
@[simp] theorem edgeFall1_refused (s : State) :
    (edgeFall1 s).refused = s.refused := rfl
@[simp] theorem edgeFall1_hostRes (s : State) :
    (edgeFall1 s).hostRes = s.hostRes := rfl
@[simp] theorem edgeFall1_txStatus (s : State) :
    (edgeFall1 s).txStatus = s.txStatus := rfl
@[simp] theorem edgeFall1_input (s : State) :
    (edgeFall1 s).input = s.input := rfl
@[simp] theorem edgeFall1_freeDraws (s : State) :
    (edgeFall1 s).freeDraws = s.freeDraws := rfl

/-! ### wakeAndReply -/

@[simp] theorem wakeAndReply_mode (s : State) :
    (wakeAndReply s).mode = s.mode := by
  cases h : s.txStatus <;> simp [wakeAndReply, h]
@[simp] theorem wakeAndReply_params (s : State) :
    (wakeAndReply s).params = s.params := by
  cases h : s.txStatus <;> simp [wakeAndReply, h]
@[simp] theorem wakeAndReply_init (s : State) :
    (wakeAndReply s).init = s.init := by
  cases h : s.txStatus <;> simp [wakeAndReply, h]
@[simp] theorem wakeAndReply_pm25 (s : State) :
    (wakeAndReply s).pm25 = s.pm25 := by
  cases h : s.txStatus <;> simp [wakeAndReply, h]
@[simp] theorem wakeAndReply_pm10 (s : State) :
    (wakeAndReply s).pm10 = s.pm10 := by
  cases h : s.txStatus <;> simp [wakeAndReply, h]
@[simp] theorem wakeAndReply_storeValid (s : State) :
    (wakeAndReply s).storeValid = s.storeValid := by
  cases h : s.txStatus <;> simp [wakeAndReply, h]
@[simp] theorem wakeAndReply_rxBuf (s : State) :
    (wakeAndReply s).rxBuf = s.rxBuf := by
  cases h : s.txStatus <;> simp [wakeAndReply, h]
@[simp] theorem wakeAndReply_rxArmed (s : State) :
    (wakeAndReply s).rxArmed = (s.rxArmed || s.txStatus == .sent) := by
  cases h : s.txStatus <;> simp [wakeAndReply, h]
@[simp] theorem wakeAndReply_pwmState (s : State) :
    (wakeAndReply s).pwmState = s.pwmState := by
  cases h : s.txStatus <;> simp [wakeAndReply, h]
@[simp] theorem wakeAndReply_capPol (s : State) :
    (wakeAndReply s).capPol = s.capPol := by
  cases h : s.txStatus <;> simp [wakeAndReply, h]
@[simp] theorem wakeAndReply_H (s : State) :
    (wakeAndReply s).H = s.H ++ [.tx encodeWakeByte s.txStatus]
      ++ (if s.txStatus = .sent ∧ s.rxArmed = false then [.arm 10] else []) := by
  cases h : s.txStatus <;> cases ha : s.rxArmed <;> simp [wakeAndReply, armRx_H, h, ha]
@[simp] theorem wakeAndReply_fault (s : State) :
    (wakeAndReply s).fault = s.fault := by
  cases h : s.txStatus <;> simp [wakeAndReply, h]
@[simp] theorem wakeAndReply_refused (s : State) :
    (wakeAndReply s).refused = s.refused := by
  cases h : s.txStatus <;> simp [wakeAndReply, h]
@[simp] theorem wakeAndReply_hostRes (s : State) :
    (wakeAndReply s).hostRes = s.hostRes ++ [sendResult s.txStatus] := by
  cases h : s.txStatus <;> simp [wakeAndReply, h]
@[simp] theorem wakeAndReply_txStatus (s : State) :
    (wakeAndReply s).txStatus = s.txStatus := by
  cases h : s.txStatus <;> simp [wakeAndReply, h]
@[simp] theorem wakeAndReply_input (s : State) :
    (wakeAndReply s).input = s.input := by
  cases h : s.txStatus <;> simp [wakeAndReply, h]
@[simp] theorem wakeAndReply_freeDraws (s : State) :
    (wakeAndReply s).freeDraws = s.freeDraws := by
  cases h : s.txStatus <;> simp [wakeAndReply, h]

/-! ### receive -/

@[simp] theorem receive_mode (b : Bytes10) (s : State) :
    (receive b s).mode = s.mode := by
  cases h : decodeFrame b <;> simp [receive, h]
@[simp] theorem receive_params (b : Bytes10) (s : State) :
    (receive b s).params = s.params := by
  cases h : decodeFrame b <;> simp [receive, h]
@[simp] theorem receive_init (b : Bytes10) (s : State) :
    (receive b s).init = s.init := by
  cases h : decodeFrame b <;> simp [receive, h]
@[simp] theorem receive_pm25 (b : Bytes10) (s : State) :
    (receive b s).pm25 = ((decodeFrame b).map (·.1)).getD s.pm25 := by
  cases h : decodeFrame b <;> simp [receive, h]
@[simp] theorem receive_pm10 (b : Bytes10) (s : State) :
    (receive b s).pm10 = ((decodeFrame b).map (·.2)).getD s.pm10 := by
  cases h : decodeFrame b <;> simp [receive, h]
@[simp] theorem receive_storeValid (b : Bytes10) (s : State) :
    (receive b s).storeValid = (s.storeValid || (decodeFrame b).isSome) := by
  cases h : decodeFrame b <;> simp [receive, h]
@[simp] theorem receive_rxBuf (b : Bytes10) (s : State) :
    (receive b s).rxBuf = b := by
  cases h : decodeFrame b <;> simp [receive, h]
@[simp] theorem receive_rxArmed (b : Bytes10) (s : State) :
    (receive b s).rxArmed = true := by
  cases h : decodeFrame b <;> simp [receive, h]
@[simp] theorem receive_pwmState (b : Bytes10) (s : State) :
    (receive b s).pwmState = s.pwmState := by
  cases h : decodeFrame b <;> simp [receive, h]
@[simp] theorem receive_capPol (b : Bytes10) (s : State) :
    (receive b s).capPol = s.capPol := by
  cases h : decodeFrame b <;> simp [receive, h]
@[simp] theorem receive_H (b : Bytes10) (s : State) :
    (receive b s).H = s.H ++ [.arm 10] := by
  cases h : decodeFrame b <;> simp [receive, h, armRx_H]
@[simp] theorem receive_fault (b : Bytes10) (s : State) :
    (receive b s).fault = s.fault := by
  cases h : decodeFrame b <;> simp [receive, h]
@[simp] theorem receive_refused (b : Bytes10) (s : State) :
    (receive b s).refused = s.refused := by
  cases h : decodeFrame b <;> simp [receive, h]
@[simp] theorem receive_hostRes (b : Bytes10) (s : State) :
    (receive b s).hostRes = s.hostRes := by
  cases h : decodeFrame b <;> simp [receive, h]
@[simp] theorem receive_txStatus (b : Bytes10) (s : State) :
    (receive b s).txStatus = s.txStatus := by
  cases h : decodeFrame b <;> simp [receive, h]
@[simp] theorem receive_input (b : Bytes10) (s : State) :
    (receive b s).input = s.input := by
  cases h : decodeFrame b <;> simp [receive, h]
@[simp] theorem receive_freeDraws (b : Bytes10) (s : State) :
    (receive b s).freeDraws = s.freeDraws := by
  cases h : decodeFrame b <;> simp [receive, h]

end Sys2Proof.Machine
end

