-- ==== Sys2Proof/Laws/Exec.lean ====
section
/-! SUPPORT. What each shared operation can answer, and from it everything a next state of exec can be. -/

namespace Sys2Proof.Machine

/-- A live instance runs the operation. -/
theorem ifLive_of_unmarked (s : State) (k : State → Result) (h : s.Unmarked) : ifLive s k = k s := by
  simp [ifLive, h.1, h.2]

/-- A next state under `ifLive` is the operation's own, from an unmarked state. -/
theorem ifLive_eq_next (s t : State) (k : State → Result) :
    ifLive s k = .next t ↔ s.Unmarked ∧ k s = .next t := by
  unfold ifLive State.Unmarked
  split <;> simp_all

/-- A marked instance has no next state under `ifLive` (R87). -/
theorem ifLive_ne_next_of_marked (s t : State) (k : State → Result) (h : ¬ s.Unmarked) :
    ifLive s k ≠ .next t := fun e => h ((ifLive_eq_next s t k).1 e).1

theorem ifLive_of_fault (s : State) (k : State → Result) (r : Fault) (h : s.fault = some r) :
    ifLive s k = .fault r := by
  simp [ifLive, h]

theorem ifLive_of_refused (s : State) (k : State → Result) (r : RefusedReason) (hf : s.fault = none)
    (h : s.refused = some r) : ifLive s k = .refused (.marked r) := by
  simp [ifLive, hf, h]

/-- The guard passes exactly in MODE = UART after INIT (R66). -/
theorem commandGuard_of_ready (s : State) (k : State → Result) (hm : s.mode = .uart) (hi : s.init = true) :
    commandGuard s k = k s := by
  simp [commandGuard, hm, hi]

/-- Why a guarded command may answer a next state: it ran, or it marked the one reason of R66 that held. -/
theorem commandGuard_eq_next (s t : State) (k : State → Result) (h : commandGuard s k = .next t) :
    (s.mode = .uart ∧ s.init = true ∧ k s = .next t)
    ∨ (s.mode = .pwm ∧ t = { s with refused := some .wrongMode })
    ∨ (s.mode = .uart ∧ s.init = false ∧ t = { s with refused := some .notInitialised }) := by
  unfold commandGuard raiseRefused at h
  cases hm : s.mode <;> cases hi : s.init <;> simp_all

theorem readStore_eq_next (value : State → Word) (s t : State) (h : readStore value s = .next t) :
    (s.params.storeReset = .unwritten ∧ s.storeValid = false ∧ t = { s with fault := some .unwrittenRead })
    ∨ t = reply (.value (value s)) s := by
  unfold readStore raiseFault at h
  split at h <;> simp_all

theorem deliver_eq_next (b : Bytes10) (s t : State) (h : deliver b s = .next t) :
    s.mode = .uart ∧ s.rxArmed = true ∧ t = receive b s := by
  unfold deliver rxEnabled at h
  split at h <;> simp_all

theorem transmit_eq_next (bytes : List Byte) (s t : State) (h : transmit bytes s = .next t) :
    s.mode = .uart ∧ s.init = true ∧ t = emit (.tx bytes s.txStatus) s := by
  unfold transmit txEnabled at h
  split at h <;> simp_all

/-- Everything an enabled edge can do (R76 to R78). -/
theorem captureEdge_eq_next (c10 c25 : Word) (s t : State) (h : captureEdge c10 c25 s = .next t) :
    s.mode = .pwm ∧ s.init = true
    ∧ ((s.pwmState = .awaitRise ∧ t = edgeRise s)
      ∨ (s.pwmState = .awaitFall1 ∧ t = edgeFall1 s)
      ∨ (s.pwmState = .awaitFall2 ∧ edgeFall2 c10 c25 s = .next t)) := by
  unfold captureEdge edgeEnabled at h
  split at h
  · split at h <;> simp_all
  · simp at h

/-- The closing edge: it stores both offset values, or faults under FAULT on a capture below 2 (R74, R78). -/
theorem edgeFall2_eq_next (c10 c25 : Word) (s t : State) (h : edgeFall2 c10 c25 s = .next t) :
    (∃ v10 v25, offset s.params.pwmUnderflow c10 = some v10 ∧ offset s.params.pwmUnderflow c25 = some v25
      ∧ t = { s with
          capPol := .rising, H := s.H ++ [.setPolarity .rising], pm25 := v25, pm10 := v10,
          storeValid := true, pwmState := .awaitRise })
    ∨ ((offset s.params.pwmUnderflow c10 = none ∨ offset s.params.pwmUnderflow c25 = none)
      ∧ t = { s with fault := some .pwmUnderflow }) := by
  unfold edgeFall2 at h
  split at h
  · rename_i v10 v25 h10 h25
    cases h
    exact .inl ⟨v10, v25, h10, h25, rfl⟩
  · rename_i hn
    cases h
    refine .inr ⟨?_, rfl⟩
    cases h10 : offset s.params.pwmUnderflow c10 with
    | none => exact .inl rfl
    | some v10 =>
      cases h25 : offset s.params.pwmUnderflow c25 with
      | none => exact .inr rfl
      | some v25 => exact absurd h25 (hn v10 v25 h10)

/-- The one inversion of exec: every next state it can answer, by what was done. -/
inductive StepsTo : Instr → State → State → Prop
  | resetUart (s) : StepsTo .resetUart s (resetTo .uart s)
  | resetPwm (s) : StepsTo .resetPwm s (resetTo .pwm s)
  | initUart (i s) : isInit i = true → s.Unmarked → s.mode = .uart → StepsTo i s (initUart s)
  | initPwm (i s) : isInit i = true → s.Unmarked → s.mode = .pwm → StepsTo i s (initPwm s)
  | wrongMode (i s) : isCommand i = true → s.Unmarked → s.mode = .pwm →
      StepsTo i s { s with refused := some .wrongMode }
  | notInitialised (i s) : isCommand i = true → s.Unmarked → s.mode = .uart → s.init = false →
      StepsTo i s { s with refused := some .notInitialised }
  | setwp (p s) : s.Unmarked → s.mode = .uart → s.init = true →
      StepsTo (.setwp p) s (sendAndReply (encodeSetWorkingPeriod p) s)
  | sleep (s) : s.Unmarked → s.mode = .uart → s.init = true →
      StepsTo .sleep s (sendAndReply encodeSleepCommand s)
  | wake (s) : s.Unmarked → s.mode = .uart → s.init = true → StepsTo .wake s (wakeAndReply s)
  | getPm25 (s) : s.Unmarked → StepsTo .getPm25 s (reply (.value s.pm25) s)
  | getPm10 (s) : s.Unmarked → StepsTo .getPm10 s (reply (.value s.pm10) s)
  | unwritten (i s) : i = .getPm25 ∨ i = .getPm10 → s.Unmarked →
      s.params.storeReset = .unwritten → s.storeValid = false →
      StepsTo i s { s with fault := some .unwrittenRead }
  | delivery (i b s) : i = .rxdone b ∨ (∃ x y z, i = .rxMeas x y z ∧ b = measurementFrame x y z) →
      s.Unmarked → s.mode = .uart → s.rxArmed = true → StepsTo i s (receive b s)
  | txSetwp (q s) : s.Unmarked → s.mode = .uart → s.init = true →
      StepsTo (.txSetwp q) s (emit (.tx (encodeSetWorkingPeriod q) s.txStatus) s)
  | txSleep (s) : s.Unmarked → s.mode = .uart → s.init = true →
      StepsTo .txSleep s (emit (.tx encodeSleepCommand s.txStatus) s)
  | txWake (s) : s.Unmarked → s.mode = .uart → s.init = true →
      StepsTo .txWake s (emit (.tx encodeWakeByte s.txStatus) s)
  | edgeRise (c10 c25 s) : s.Unmarked → s.mode = .pwm → s.init = true → s.pwmState = .awaitRise →
      StepsTo (.edge c10 c25) s (edgeRise s)
  | edgeFall1 (c10 c25 s) : s.Unmarked → s.mode = .pwm → s.init = true → s.pwmState = .awaitFall1 →
      StepsTo (.edge c10 c25) s (edgeFall1 s)
  | edgeStore (c10 c25 s v10 v25) : s.Unmarked → s.mode = .pwm → s.init = true → s.pwmState = .awaitFall2 →
      offset s.params.pwmUnderflow c10 = some v10 → offset s.params.pwmUnderflow c25 = some v25 →
      StepsTo (.edge c10 c25) s { s with
        capPol := .rising, H := s.H ++ [.setPolarity .rising], pm25 := v25, pm10 := v10,
        storeValid := true, pwmState := .awaitRise }
  | edgeFault (c10 c25 s) : s.Unmarked → s.mode = .pwm → s.init = true → s.pwmState = .awaitFall2 →
      offset s.params.pwmUnderflow c10 = none ∨ offset s.params.pwmUnderflow c25 = none →
      StepsTo (.edge c10 c25) s { s with fault := some .pwmUnderflow }

/-! ### exec of each instruction in an unmarked state -/

theorem exec_init_of_unmarked (s : State) (h : s.Unmarked) :
    exec .init s = .next (initialise s) := by
  simp only [exec, execInit, ifLive_of_unmarked s _ h]

theorem exec_initPwm_of_unmarked (s : State) (h : s.Unmarked) :
    exec .initPwm s = .next (initialise s) := by
  simp only [exec, execInitPwm, ifLive_of_unmarked s _ h]

theorem exec_setwp_of_unmarked (p : Byte) (s : State) (h : s.Unmarked) :
    exec (.setwp p) s = commandGuard s fun s => .next (sendAndReply (encodeSetWorkingPeriod p) s) := by
  simp only [exec, execSetwp, ifLive_of_unmarked s _ h]

theorem exec_sleep_of_unmarked (s : State) (h : s.Unmarked) :
    exec .sleep s = commandGuard s fun s => .next (sendAndReply encodeSleepCommand s) := by
  simp only [exec, execSleep, ifLive_of_unmarked s _ h]

theorem exec_wake_of_unmarked (s : State) (h : s.Unmarked) :
    exec .wake s = commandGuard s fun s => .next (wakeAndReply s) := by
  simp only [exec, execWake, ifLive_of_unmarked s _ h]

theorem exec_getPm25_of_unmarked (s : State) (h : s.Unmarked) :
    exec .getPm25 s = readStore State.pm25 s :=
  ifLive_of_unmarked s _ h

theorem exec_getPm10_of_unmarked (s : State) (h : s.Unmarked) :
    exec .getPm10 s = readStore State.pm10 s :=
  ifLive_of_unmarked s _ h

theorem exec_rxdone_of_unmarked (b : Bytes10) (s : State) (h : s.Unmarked) :
    exec (.rxdone b) s = deliver b s :=
  ifLive_of_unmarked s _ h

theorem exec_edge_of_unmarked (c10 c25 : Word) (s : State) (h : s.Unmarked) :
    exec (.edge c10 c25) s = captureEdge c10 c25 s :=
  ifLive_of_unmarked s _ h

theorem exec_rxMeas_of_unmarked (raw25 raw10 devId : Word) (s : State) (h : s.Unmarked) :
    exec (.rxMeas raw25 raw10 devId) s = deliver (measurementFrame raw25 raw10 devId) s :=
  ifLive_of_unmarked s _ h

theorem exec_txSetwp_of_unmarked (q : Byte) (s : State) (h : s.Unmarked) :
    exec (.txSetwp q) s = transmit (encodeSetWorkingPeriod q) s :=
  ifLive_of_unmarked s _ h

theorem exec_txSleep_of_unmarked (s : State) (h : s.Unmarked) :
    exec .txSleep s = transmit encodeSleepCommand s :=
  ifLive_of_unmarked s _ h

theorem exec_txWake_of_unmarked (s : State) (h : s.Unmarked) :
    exec .txWake s = transmit encodeWakeByte s :=
  ifLive_of_unmarked s _ h

/-- Every instruction but RESET is refused a step in a marked state (R87). -/
theorem exec_of_fault (i : Instr) (s : State) (r : Fault) (hi : isReset i = false) (h : s.fault = some r) :
    exec i s = .fault r := by
  cases i <;> first
    | simp [isReset] at hi; done
    | simp only [exec, execInit, execInitPwm, execSetwp, execSleep, execWake, execGetPm25, execGetPm10, execRxdone,
      execEdge, execRxMeas, execTxSetwp, execTxSleep, execTxWake,
        ifLive_of_fault s _ r h]

theorem exec_of_refused (i : Instr) (s : State) (r : RefusedReason) (hi : isReset i = false)
    (hf : s.fault = none) (h : s.refused = some r) : exec i s = .refused (.marked r) := by
  cases i <;> first
    | simp [isReset] at hi; done
    | simp only [exec, execInit, execInitPwm, execSetwp, execSleep, execWake, execGetPm25, execGetPm10, execRxdone,
      execEdge, execRxMeas, execTxSetwp, execTxSleep, execTxWake,
        ifLive_of_refused s _ r hf h]

/-- A fault is answered only where it is recorded (R87; log 1). -/
theorem exec_eq_fault (i : Instr) (s : State) (r : Fault) (h : exec i s = .fault r) : s.fault = some r := by
  have live : ∀ k : State → Result, (∀ x, k x ≠ .fault r) → ifLive s k = .fault r → s.fault = some r := by
    intro k hk e
    unfold ifLive at e
    split at e
    · rename_i r' hf; rw [hf]; cases e; rfl
    · cases e
    · exact absurd e (hk s)
  have guard : ∀ (f : State → State) (x : State), commandGuard x (fun s => .next (f s)) ≠ .fault r := by
    intro f x; unfold commandGuard raiseRefused; split_ifs <;> simp
  have read : ∀ (v : State → Word) (x : State), readStore v x ≠ .fault r := by
    intro v x; unfold readStore raiseFault; split <;> simp
  have deliv : ∀ (b : Bytes10) (x : State), deliver b x ≠ .fault r := by
    intro b x; unfold deliver; split <;> simp
  have send : ∀ (b : List Byte) (x : State), transmit b x ≠ .fault r := by
    intro b x; unfold transmit; split <;> simp
  cases i with
  | init => exact live (fun s => .next (initialise s)) (fun _ => nofun) h
  | initPwm => exact live (fun s => .next (initialise s)) (fun _ => nofun) h
  | setwp p => exact live _ (guard _) h
  | sleep => exact live _ (guard _) h
  | wake => exact live _ (guard _) h
  | getPm25 => exact live _ (read _) h
  | getPm10 => exact live _ (read _) h
  | rxdone b => exact live _ (deliv b) h
  | edge c10 c25 =>
    refine live _ (fun x => ?_) h
    unfold captureEdge edgeFall2 raiseFault
    repeat' split
    all_goals simp
  | resetUart => cases h
  | resetPwm => cases h
  | rxMeas a c d => exact live _ (deliv _) h
  | txSetwp q => exact live _ (send _) h
  | txSleep => exact live _ (send _) h
  | txWake => exact live _ (send _) h

theorem initialise_stepsTo (i : Instr) (s t : State) (hi : isInit i = true)
    (h : ifLive s (fun s => .next (initialise s)) = .next t) : StepsTo i s t := by
  obtain ⟨hu, h⟩ := (ifLive_eq_next _ _ _).1 h
  cases h
  unfold initialise
  cases hm : s.mode
  · exact .initUart i s hi hu hm
  · exact .initPwm i s hi hu hm

theorem command_stepsTo (i : Instr) (s t : State) (f : State → State) (hi : isCommand i = true)
    (hf : s.Unmarked → s.mode = .uart → s.init = true → StepsTo i s (f s))
    (h : ifLive s (fun s => commandGuard s fun s => .next (f s)) = .next t) : StepsTo i s t := by
  obtain ⟨hu, h⟩ := (ifLive_eq_next _ _ _).1 h
  obtain ⟨hm, hn, e⟩ | ⟨hm, rfl⟩ | ⟨hm, hn, rfl⟩ := commandGuard_eq_next _ _ _ h
  · cases e
    exact hf hu hm hn
  · exact .wrongMode i s hi hu hm
  · exact .notInitialised i s hi hu hm hn

theorem delivery_stepsTo (i : Instr) (b : Bytes10) (s t : State)
    (hi : i = .rxdone b ∨ (∃ x y z, i = .rxMeas x y z ∧ b = measurementFrame x y z))
    (h : ifLive s (deliver b) = .next t) : StepsTo i s t := by
  obtain ⟨hu, h⟩ := (ifLive_eq_next _ _ _).1 h
  obtain ⟨hm, ha, rfl⟩ := deliver_eq_next _ _ _ h
  exact .delivery i b s hi hu hm ha

/-- Every next state of exec is one of the listed ones. -/
theorem exec_stepsTo (i : Instr) (s t : State) (h : exec i s = .next t) : StepsTo i s t := by
  cases i with
  | init => exact initialise_stepsTo _ s t rfl h
  | initPwm => exact initialise_stepsTo _ s t rfl h
  | setwp p => exact command_stepsTo _ s t _ rfl (.setwp p s) h
  | sleep => exact command_stepsTo _ s t _ rfl (.sleep s) h
  | wake => exact command_stepsTo _ s t _ rfl (.wake s) h
  | getPm25 =>
    obtain ⟨hu, h⟩ := (ifLive_eq_next _ _ _).1 h
    obtain ⟨h1, h2, rfl⟩ | rfl := readStore_eq_next _ _ _ h
    · exact .unwritten _ s (.inl rfl) hu h1 h2
    · exact .getPm25 s hu
  | getPm10 =>
    obtain ⟨hu, h⟩ := (ifLive_eq_next _ _ _).1 h
    obtain ⟨h1, h2, rfl⟩ | rfl := readStore_eq_next _ _ _ h
    · exact .unwritten _ s (.inr rfl) hu h1 h2
    · exact .getPm10 s hu
  | rxdone b => exact delivery_stepsTo _ b s t (.inl rfl) h
  | edge c10 c25 =>
    obtain ⟨hu, h⟩ := (ifLive_eq_next _ _ _).1 h
    obtain ⟨hm, hn, ⟨hp, rfl⟩ | ⟨hp, rfl⟩ | ⟨hp, h⟩⟩ := captureEdge_eq_next _ _ _ _ h
    · exact .edgeRise c10 c25 s hu hm hn hp
    · exact .edgeFall1 c10 c25 s hu hm hn hp
    · obtain ⟨v10, v25, h10, h25, rfl⟩ | ⟨hf, rfl⟩ := edgeFall2_eq_next _ _ _ _ h
      · exact .edgeStore c10 c25 s v10 v25 hu hm hn hp h10 h25
      · exact .edgeFault c10 c25 s hu hm hn hp hf
  | resetUart => cases h; exact .resetUart s
  | resetPwm => cases h; exact .resetPwm s
  | rxMeas x y z => exact delivery_stepsTo _ _ s t (.inr ⟨x, y, z, rfl, rfl⟩) h
  | txSetwp q =>
    obtain ⟨hu, h⟩ := (ifLive_eq_next _ _ _).1 h
    obtain ⟨hm, hn, rfl⟩ := transmit_eq_next _ _ _ h
    exact .txSetwp q s hu hm hn
  | txSleep =>
    obtain ⟨hu, h⟩ := (ifLive_eq_next _ _ _).1 h
    obtain ⟨hm, hn, rfl⟩ := transmit_eq_next _ _ _ h
    exact .txSleep s hu hm hn
  | txWake =>
    obtain ⟨hu, h⟩ := (ifLive_eq_next _ _ _).1 h
    obtain ⟨hm, hn, rfl⟩ := transmit_eq_next _ _ _ h
    exact .txWake s hu hm hn

end Sys2Proof.Machine
end

