-- ==== Sys2Proof/Laws/Operands.lean ====
section
/-! SUPPORT. What each operand form computes, as numbers. -/

namespace Sys2Proof.Machine

theorem le16_toNat (l h : Byte) : (le16 l h).toNat = l.toNat + 256 * h.toNat := by
  have hl := l.isLt
  have hh := h.isLt
  have e : le16 l h = h ++ l := by
    apply BitVec.eq_of_getLsbD_eq
    intro i hi
    simp only [le16, BitVec.getLsbD_or, BitVec.getLsbD_shiftLeft, BitVec.getLsbD_setWidth,
      BitVec.getLsbD_append]
    by_cases h8 : i < 8
    · simp [h8, hi]
    · have : ¬ l.getLsbD i = true := by
        rw [BitVec.getLsbD_of_ge l i (by omega)]; simp
      simp [h8, hi, this]
      omega
  rw [e, BitVec.toNat_append, Nat.shiftLeft_eq]
  rw [Nat.mul_comm, ← Nat.two_pow_add_eq_or_of_lt (by simpa using hl)]
  omega

theorem lo_toNat (v : Word) : (lo v).toNat = v.toNat % 256 := by simp [lo]

theorem hi_toNat (v : Word) : (hi v).toNat = v.toNat / 256 := by
  have := v.isLt
  simp only [hi, BitVec.toNat_setWidth, BitVec.toNat_ushiftRight, Nat.shiftRight_eq_div_pow]
  omega

/-- A value is put together from its own two bytes (R13). -/
@[simp] theorem le16_lo_hi (v : Word) : le16 (lo v) (hi v) = v := by
  apply BitVec.eq_of_toNat_eq
  rw [le16_toNat, lo_toNat, hi_toNat]
  omega

@[simp] theorem lo_le16 (l h : Byte) : lo (le16 l h) = l := by
  apply BitVec.eq_of_toNat_eq
  have := l.isLt
  rw [lo_toNat, le16_toNat]
  omega

@[simp] theorem hi_le16 (l h : Byte) : hi (le16 l h) = h := by
  apply BitVec.eq_of_toNat_eq
  have := l.isLt
  rw [hi_toNat, le16_toNat]
  omega

theorem checksum_toNat (b : List Byte) (lo hi : Nat) :
    (checksum b lo hi).toNat = (((b.drop lo).take (hi + 1 - lo)).map BitVec.toNat).sum % 256 := by
  simp [checksum]

theorem toBytes10_bytes10List (b : Bytes10) : toBytes10 (bytes10List b) = some b := rfl

/-- Only ten bytes make a delivery, and they are its bytes in order (R36). -/
theorem toBytes10_eq_some (l : List Byte) (b : Bytes10) : toBytes10 l = some b ↔ l = bytes10List b := by
  constructor
  · intro h
    unfold toBytes10 at h
    split at h
    · cases h; rfl
    · cases h
  · rintro rfl; rfl

theorem clampPeriod_toNat (p : Byte) : (clampPeriod p).toNat = min p.toNat 30 := by
  unfold clampPeriod wpMax
  split <;> rename_i h <;> simp only [BitVec.le_def] at h <;> simp at h ⊢ <;> omega

theorem clampPeriod_of_le (p : Byte) (h : p.toNat ≤ 30) : clampPeriod p = p := by
  apply BitVec.eq_of_toNat_eq
  rw [clampPeriod_toNat]
  omega

theorem scaleRaw_toNat (v : Word) : (scaleRaw v).toNat = v.toNat / 10 := by
  simp [scaleRaw, serialDivisor]

/-- Offset never fails on a count of at least 2 (R74). -/
theorem offset_of_two_le (u : PwmUnderflow) (c : Word) (h : 2 ≤ c.toNat) : offset u c = some (c - 2) := by
  have : pwmOffset ≤ c := by simpa [BitVec.le_def, pwmOffset] using h
  unfold offset
  rw [if_pos this]
  rfl

/-- Offset fails exactly on a count below 2 under FAULT (R74). -/
theorem offset_eq_none (u : PwmUnderflow) (c : Word) : offset u c = none ↔ u = .fault ∧ c.toNat < 2 := by
  have e : pwmOffset ≤ c ↔ 2 ≤ c.toNat := by simp [BitVec.le_def, pwmOffset]
  unfold offset
  split
  · rename_i h; rw [e] at h; simp; omega
  · rename_i h; rw [e] at h; cases u <;> simp; omega

end Sys2Proof.Machine
end

