-- ==== Sys2Proof/Laws/PerInstr.lean ====
section
/-! SUPPORT. Facts stated for every instruction, one lemma per constructor. -/

namespace Sys2Proof.Laws.EncodedLength

open Sys2Proof

/-- The number of bytes each row's layout has (30_encoding.md R56, R57). -/
def byteCount : Instr → Nat
  | .init | .initPwm | .sleep | .wake | .getPm25 | .getPm10 => 1
  | .setwp _ | .resetUart | .resetPwm => 2
  | .rxdone _ => 11
  | .edge _ _ => 5
  | .rxMeas _ _ _ => 10
  | .txSetwp _ | .txSleep => 19
  | .txWake => 1

/-- The encoder gives every instruction exactly the bytes of its layout. -/
def Statement (i : Instr) : Prop := (encode i).2.length = byteCount i

theorem init : Statement .init := rfl
theorem initPwm : Statement .initPwm := rfl
theorem setwp (p : Byte) : Statement (.setwp p) := rfl
theorem sleep : Statement .sleep := rfl
theorem wake : Statement .wake := rfl
theorem getPm25 : Statement .getPm25 := rfl
theorem getPm10 : Statement .getPm10 := rfl
theorem rxdone (b : Bytes10) : Statement (.rxdone b) := rfl
theorem edge (c10 c25 : Word) : Statement (.edge c10 c25) := rfl
theorem resetUart : Statement .resetUart := rfl
theorem resetPwm : Statement .resetPwm := rfl
theorem rxMeas (raw25 raw10 devId : Word) : Statement (.rxMeas raw25 raw10 devId) := rfl
theorem txSetwp (q : Byte) : Statement (.txSetwp q) := rfl
theorem txSleep : Statement .txSleep := rfl
theorem txWake : Statement .txWake := rfl

end Sys2Proof.Laws.EncodedLength
end

