-- ==== Sys2Proof/Tests/Slice0.lean ====
section
/-! SUPPORT. Tests whose expected results come from spec/: the words of 30_encoding.md, the vectors of
95_test_vectors.md; then one witness for each clause of each statement that has hypotheses. -/

namespace Sys2Proof.Machine.Tests

open Sys2Proof Sys2Proof.Machine

/-- The answer is a next state with this property. -/
def nextIs (r : Result) (p : State → Bool) : Bool :=
  match r with
  | .next t => p t
  | .fault _ => false
  | .refused _ => false

/-- MODE = UART after INIT, with this draw and these stored values. -/
def uart (status : TxStatus) (pm25 pm10 : Word) : State :=
  { State.reset with init := true, rxArmed := true, pm25 := pm25, pm10 := pm10, txStatus := status }

/-- MODE = PWM after INIT, in this sequencer state, with this PWM_UNDERFLOW. -/
def pwm (p : PwmState) (u : PwmUnderflow) : State :=
  { State.reset with
    mode := .pwm, init := true, pwmState := p, params := { storeReset := .zero, pwmUnderflow := u }
    capPol := if p = .awaitRise then .rising else .falling }

/-- Reset under STORE_RESET = UNWRITTEN. -/
def unwritten : State := { State.reset with params := { storeReset := .unwritten, pwmUnderflow := .wrap } }

/-- A state with one pending operation. -/
def pending (s : State) (bytes : List Byte) : State :=
  { s with input := [{ level := .op, bytes := bytes, status := .sent }] }

/-- W1, the valid frame of D-DEC row 1. -/
def w1 : Bytes10 := ⟨0xAA, 0xC0, 0x2C, 0x01, 0x58, 0x02, 0x00, 0x00, 0x87, 0xAB⟩

/-- W2, the source's literal frame, whose checksum is wrong. -/
def w2 : Bytes10 := ⟨0xAA, 0xC0, 0x2C, 0x01, 0x58, 0x02, 0x00, 0x00, 0x8B, 0xAB⟩

/-- D-DEC row 2. -/
def row2 : Bytes10 := ⟨0xAA, 0xC0, 0xD2, 0x04, 0x1A, 0x0A, 0x12, 0x34, 0x40, 0xAB⟩

/-! ## Well-formedness -/

theorem test_period_above_30_is_ill_formed : (Instr.txSetwp 31).wf = false := by decide
theorem test_period_30_is_well_formed : (Instr.txSetwp 30).wf = true := by decide
theorem test_init_pwm_not_selected_in_uart : Instr.selectedIn .uart .initPwm = false := by decide
theorem test_init_not_selected_in_pwm : Instr.selectedIn .pwm .init = false := by decide

/-! ## Decoding: words written out from R57 and R49 to R52 -/

theorem test_decode_init : decode .uart .op [0x01] = .ok .init := by decide
theorem test_decode_init_pwm : decode .pwm .op [0x01] = .ok .initPwm := by decide
theorem test_decode_setwp : decode .uart .op [0x02, 0x2D] = .ok (.setwp 45) := by decide
theorem test_decode_sleep : decode .uart .op [0x03] = .ok .sleep := by decide
theorem test_decode_wake : decode .uart .op [0x04] = .ok .wake := by decide
theorem test_decode_getpm25 : decode .pwm .op [0x05] = .ok .getPm25 := by decide
theorem test_decode_getpm10 : decode .pwm .op [0x06] = .ok .getPm10 := by decide
theorem test_decode_rxdone :
    decode .uart .op [0x10, 0xAA, 0xC0, 0x2C, 0x01, 0x58, 0x02, 0x00, 0x00, 0x87, 0xAB] = .ok (.rxdone w1) := by decide
/-- P3: `EDGE 502, 302`. -/
theorem test_decode_edge : decode .pwm .op [0x11, 0xF6, 0x01, 0x2E, 0x01] = .ok (.edge 502 302) := by decide
theorem test_decode_reset_uart : decode .pwm .op [0x1F, 0x00] = .ok .resetUart := by decide
theorem test_decode_reset_pwm : decode .uart .op [0x1F, 0x01] = .ok .resetPwm := by decide
/-- D-DEC row 2: 0x04D2 = 1234, 0x0A1A = 2586, device-id 0x3412. -/
theorem test_decode_rx_meas :
    decode .uart .wireIn [0xAA, 0xC0, 0xD2, 0x04, 0x1A, 0x0A, 0x12, 0x34, 0x40, 0xAB]
      = .ok (.rxMeas 1234 2586 0x3412) := by decide
/-- D-WP, p = 30. -/
theorem test_decode_tx_setwp :
    decode .uart .wireOut
      [0xAA, 0xB4, 0x08, 0x01, 0x1E, 0, 0, 0, 0, 0, 0, 0, 0, 0, 0, 0xFF, 0xFF, 0x25, 0xAB] = .ok (.txSetwp 30) := by
  decide
/-- W4. -/
theorem test_decode_tx_sleep :
    decode .uart .wireOut
      [0xAA, 0xB4, 0x06, 0x01, 0, 0, 0, 0, 0, 0, 0, 0, 0, 0, 0, 0xFF, 0xFF, 0x05, 0xAB] = .ok .txSleep := by
  decide
theorem test_decode_tx_wake : decode .uart .wireOut [0x01] = .ok .txWake := by decide
/-- P5: 07 is unassigned. -/
theorem test_reject_unassigned : decode .uart .op [0x07] = .error (.unassigned 0x07) := by decide
theorem test_reject_cut_short : decode .pwm .op [0x11, 0xF6, 0x01] = .error .cutShort := by decide
theorem test_reject_reset_mode : decode .uart .op [0x1F, 0x02] = .error (.badResetMode 0x02) := by decide
theorem test_reject_trailing : decode .uart .op [0x01, 0x01] = .error .trailingBytes := by decide
/-- A frame with a bad checksum is a delivery like any other (R54). -/
theorem test_bad_frame_is_a_delivery :
    decode .uart .wireIn [0xAA, 0xC0, 0x2C, 0x01, 0x58, 0x02, 0x00, 0x00, 0x8B, 0xAB] = .ok (.rxdone w2) := by decide
/-- The table's word of RXDONE, all operand bytes zero. -/
theorem test_table_word_rxdone : decodeTableWord 88 0x10 = some (.rxdone ⟨0, 0, 0, 0, 0, 0, 0, 0, 0, 0⟩) := by decide
/-- An operation given fewer bits than it has reads zeros above them. -/
theorem test_table_word_short : decodeTableWord 8 0x02 = some (.setwp 0) := by decide
theorem test_table_word_reset_pwm : decodeTableWord 16 0x011F = some .resetPwm := by decide

/-! ## The Frame Codec: D-CS, D-DEC, D-WP, W4 -/

theorem test_checksum_w1 : checksum (bytes10List w1) 2 7 = 0x87 := by decide
theorem test_checksum_wraps : checksum [0xFF, 0xFF, 0xFF, 0xFF, 0xFF, 0xFF] 0 5 = 0xFA := by decide
theorem test_decode_w1 : decodeFrame w1 = some (30, 60) := by decide
theorem test_decode_w2 : decodeFrame w2 = none := by decide
theorem test_decode_row2 : decodeFrame row2 = some (123, 258) := by decide
theorem test_decode_row3_largest :
    decodeFrame ⟨0xAA, 0xC0, 0xFF, 0xFF, 0xFF, 0xFF, 0xFF, 0xFF, 0xFA, 0xAB⟩ = some (6553, 6553) := by decide
theorem test_decode_row5_truncates :
    decodeFrame ⟨0xAA, 0xC0, 0x09, 0x00, 0x13, 0x00, 0x00, 0x00, 0x1C, 0xAB⟩ = some (0, 1) := by decide
theorem test_decode_row9_header : decodeFrame { w1 with b0 := 0xAB } = none := by decide
theorem test_decode_row10_command : decodeFrame { w1 with b1 := 0xC5 } = none := by decide
theorem test_decode_row11_tail : decodeFrame { w1 with b9 := 0xAA } = none := by decide
theorem test_encode_setwp_5 :
    encodeSetWorkingPeriod 5
      = [0xAA, 0xB4, 0x08, 0x01, 0x05, 0, 0, 0, 0, 0, 0, 0, 0, 0, 0, 0xFF, 0xFF, 0x0C, 0xAB] := by decide
theorem test_encode_setwp_255_clamps :
    encodeSetWorkingPeriod 255
      = [0xAA, 0xB4, 0x08, 0x01, 0x1E, 0, 0, 0, 0, 0, 0, 0, 0, 0, 0, 0xFF, 0xFF, 0x25, 0xAB] := by decide
theorem test_sleep_frame_checksum : checksum encodeSleepCommand 2 16 = 0x05 := by decide

/-! ## One step of each operation: D-SES, D-PWM, D-STORE -/

theorem test_init_uart_failing_send : nextIs (exec .init { State.reset with txStatus := .timedOut }) (fun t =>
    t.init && t.rxArmed && t.hostRes == [.fail] && t.H == [.tx (setwpFrame 0) .timedOut, .arm 10]) = true := by decide
theorem test_second_init_arms_no_more : nextIs (exec .init (uart .sent 0 0)) (fun t =>
    t.H == [.tx (setwpFrame 0) .sent] && t.hostRes == [.ok]) = true := by decide
theorem test_init_pwm : nextIs (exec .initPwm { State.reset with mode := .pwm }) (fun t =>
    t.init && t.hostRes == [.ok] && t.H == [] && !t.rxArmed) = true := by decide
theorem test_setwp_45 : nextIs (exec (.setwp 45) (uart .sent 0 0)) (fun t =>
    t.hostRes == [.ok]
    && t.H == [.tx [0xAA, 0xB4, 0x08, 0x01, 0x1E, 0, 0, 0, 0, 0, 0, 0, 0, 0, 0, 0xFF, 0xFF, 0x25, 0xAB] .sent])
    = true := by decide
theorem test_setwp_before_init : nextIs (exec (.setwp 3) State.reset) (fun t =>
    t.refused == some .notInitialised && t.H == [] && t.hostRes == []) = true := by decide
theorem test_sleep_timed_out : nextIs (exec .sleep (uart .timedOut 0 0)) (fun t =>
    t.hostRes == [.fail] && t.H == [.tx sleepFrame .timedOut]) = true := by decide
theorem test_sleep_in_pwm : nextIs (exec .sleep (pwm .awaitRise .wrap)) (fun t =>
    t.refused == some .wrongMode && t.H == []) = true := by decide
theorem test_wake_sent : nextIs (exec .wake (uart .sent 0 0)) (fun t =>
    t.hostRes == [.ok] && t.H == [.tx [0x01] .sent] && t.rxArmed) = true := by decide
theorem test_wake_failing_does_not_arm :
    nextIs (exec .wake { uart .transportError 0 0 with rxArmed := false }) (fun t =>
      t.hostRes == [.fail] && !t.rxArmed) = true := by decide
theorem test_getpm25_reset : nextIs (exec .getPm25 State.reset) (fun t => t.hostRes == [.value 0]) = true := by decide
theorem test_getpm25_unwritten : nextIs (exec .getPm25 unwritten) (fun t =>
    t.fault == some .unwrittenRead && t.hostRes == []) = true := by decide
theorem test_getpm10 : nextIs (exec .getPm10 (uart .sent 30 60)) (fun t => t.hostRes == [.value 60]) = true := by
  decide
theorem test_rxdone_w1 : nextIs (exec (.rxdone w1) (uart .sent 0 0)) (fun t =>
    t.pm25 == 30 && t.pm10 == 60 && t.storeValid && t.rxArmed && t.rxBuf == w1 && t.H == [.arm 10]) = true := by decide
theorem test_rxdone_w2_dropped : nextIs (exec (.rxdone w2) (uart .sent 30 60)) (fun t =>
    t.pm25 == 30 && t.pm10 == 60 && !t.storeValid && t.rxArmed && t.H == [.arm 10]) = true := by decide
theorem test_edge_rise_ignores_operands : nextIs (exec (.edge 1 1) (pwm .awaitRise .fault)) (fun t =>
    t.pwmState == .awaitFall1 && t.capPol == .falling && t.H == [.counterReset, .setPolarity .falling]) = true := by
  decide
/-- D-PWM: (12, 1) under WRAP stores (0xFFFF, 10). -/
theorem test_edge_fall2_wraps : nextIs (exec (.edge 12 1) (pwm .awaitFall2 .wrap)) (fun t =>
    t.pm25 == 0xFFFF && t.pm10 == 10 && t.pwmState == .awaitRise && t.capPol == .rising) = true := by decide
theorem test_edge_fall2_502_302 : nextIs (exec (.edge 502 302) (pwm .awaitFall2 .fault)) (fun t =>
    t.pm10 == 500 && t.pm25 == 300) = true := by decide
theorem test_reset_pwm_clears_marks :
    nextIs (exec .resetPwm { uart .sent 30 60 with refused := some .unknownOp }) (fun t =>
      t.mode == .pwm && t.refused == none && !t.rxArmed && t.pm25 == 0 && !t.init) = true := by decide
theorem test_reset_uart : nextIs (exec .resetUart (pwm .awaitFall2 .saturate)) (fun t =>
    t.mode == .uart && t.pwmState == .awaitRise && t.capPol == .rising && t.H == []) = true := by decide
theorem test_rx_meas : nextIs (exec (.rxMeas 1234 2586 0x3412) (uart .sent 0 0)) (fun t =>
    t.pm25 == 123 && t.pm10 == 258 && t.rxBuf == row2) = true := by decide
theorem test_tx_setwp : nextIs (exec (.txSetwp 7) (uart .sent 0 0)) (fun t =>
    t.H == [.tx (setwpFrame 7) .sent] && t.hostRes == []) = true := by decide
theorem test_tx_sleep : nextIs (exec .txSleep (uart .sent 0 0)) (fun t => t.H == [.tx sleepFrame .sent]) = true := by
  decide
theorem test_tx_wake : nextIs (exec .txWake (uart .sent 0 0)) (fun t => t.H == [.tx [0x01] .sent]) = true := by decide

/-! ## The step, and the program text of R59 -/

/-- P5's unassigned opcode as the first step after reset. -/
theorem test_step_unknown : nextIs (step (pending State.reset [0x07])) (fun t =>
    t.refused == some .unknownOp && t.H == [] && t.input == []) = true := by decide
theorem test_step_table_word : nextIs (step (State.reset.withFetchWord 8 0x05)) (fun t =>
    t.hostRes == [.value 0]) = true := by decide
theorem test_step_waits : nextIs (step State.reset) (fun t => t == State.reset) = true := by decide
theorem test_parse_line : parseLine "SETWP 7 !TRANSPORT_ERROR   ; -> FAIL".toList
    = some [.setwp 7 .transportError] := by decide
theorem test_parse_edge : parseLine "EDGE 502, 0x12E".toList = some [.edge 502 302] := by decide
theorem test_parse_rxmeas : parseLine "RXMEAS 1234, 2586, 0x3412".toList = some [.rxmeas 1234 2586 0x3412] := by
  decide
theorem test_parse_rxdone : parseLine "RXDONE AA C0 2C 01 58 02 00 00 87 AB".toList = some [.rxdone w1] := by decide
theorem test_parse_program : parseProgram "RESET PWM\n; comment\nINIT\nPWMCYCLE 12, 1".toList
    = some [.reset .pwm, .init .sent, .pwmcycle 12 1] := by decide
/-- R59: a byte of RXDONE in either case; no decimal number has hexadecimal digits. -/
theorem test_digits : digitValue 16 'b' = some 11 ∧ digitValue 16 'B' = some 11 ∧ digitValue 10 'B' = none
    ∧ digitValue 10 '9' = some 9 ∧ digitValue 16 'g' = none := by decide
theorem test_parse_rejects : parseLine "SETWP 256".toList = none := by decide
/-- R59's expansion of PWMCYCLE, in P3's bytes. -/
theorem test_pwmcycle_inputs : (programInputs (.pwmcycle 12 1)).map Input.bytes
    = [[0x11, 0, 0, 0, 0], [0x11, 0, 0, 0, 0], [0x11, 0x0C, 0x00, 0x01, 0x00]] := by decide

/-! ## Witnesses: every statement's hypotheses, clause by clause -/

theorem witness_checksum : (0 : Nat) ≤ 2 ∧ 2 < [(1 : Byte), 2, 3].length := by decide
theorem witness_accepted_frame : decodeFrame w1 = some (30, 60) := by decide
theorem witness_offset_at_two : 2 ≤ (2 : Word).toNat := by decide
theorem witness_offset_below_two : (1 : Word).toNat < 2 := by decide
theorem witness_arm_unarmed : State.reset.rxArmed = false := by decide
theorem witness_arm_armed : (uart .sent 0 0).rxArmed = true := by decide

/-- Hypotheses of the INIT statements in MODE = UART. -/
theorem witness_unmarked_uart : State.reset.Unmarked ∧ State.reset.mode = .uart := by decide
/-- Hypotheses of the INIT statement in MODE = PWM. -/
theorem witness_unmarked_pwm : (pwm .awaitRise .wrap).Unmarked ∧ (pwm .awaitRise .wrap).mode = .pwm := by decide
/-- Hypotheses of SETWP, SLEEP, WAKE and of the outbound frames past their guards. -/
theorem witness_command_ready :
    (uart .sent 0 0).Unmarked ∧ (uart .sent 0 0).mode = .uart ∧ (uart .sent 0 0).init = true
    ∧ (Instr.txSetwp 30).wf = true := by decide
/-- The guard's first clause. -/
theorem witness_command_wrong_mode :
    isCommand .sleep = true ∧ (pwm .awaitRise .wrap).Unmarked ∧ (pwm .awaitRise .wrap).mode ≠ .uart := by decide
/-- The guard's second clause. -/
theorem witness_command_not_initialised :
    isCommand (.setwp 3) = true ∧ State.reset.Unmarked ∧ State.reset.mode = .uart ∧ State.reset.init = false := by
  decide
/-- A valid delivery. -/
theorem witness_delivery_valid :
    (uart .sent 0 0).Unmarked ∧ (uart .sent 0 0).mode = .uart ∧ (uart .sent 0 0).rxArmed = true
    ∧ decodeFrame w1 = some (30, 60) := by decide
/-- An invalid delivery, and two of them in a row. -/
theorem witness_delivery_invalid :
    (uart .sent 0 0).Unmarked ∧ (uart .sent 0 0).mode = .uart ∧ (uart .sent 0 0).rxArmed = true
    ∧ decodeFrame w2 = none ∧ ∀ b ∈ [w2, { w1 with b9 := 0xAA }], decodeFrame b = none := by decide
/-- A delivery that is not enabled. -/
theorem witness_delivery_not_enabled :
    isDelivery (.rxMeas 0 0 0) = true ∧ State.reset.Unmarked
    ∧ ¬ (State.reset.mode = .uart ∧ State.reset.rxArmed = true) := by decide
/-- An outbound frame where no rule sends. -/
theorem witness_outbound_not_enabled :
    State.reset.Unmarked ∧ ¬ (State.reset.mode = .uart ∧ State.reset.init = true) := by decide
theorem witness_edge_rise :
    (pwm .awaitRise .fault).Unmarked ∧ (pwm .awaitRise .fault).mode = .pwm ∧ (pwm .awaitRise .fault).init = true
    ∧ (pwm .awaitRise .fault).pwmState = .awaitRise := by decide
theorem witness_edge_fall1 :
    (pwm .awaitFall1 .fault).Unmarked ∧ (pwm .awaitFall1 .fault).mode = .pwm ∧ (pwm .awaitFall1 .fault).init = true
    ∧ (pwm .awaitFall1 .fault).pwmState = .awaitFall1 := by decide
/-- The closing edge with both captures at the least value that does not underflow. -/
theorem witness_edge_fall2_stores :
    (pwm .awaitFall2 .fault).Unmarked ∧ (pwm .awaitFall2 .fault).mode = .pwm ∧ (pwm .awaitFall2 .fault).init = true
    ∧ (pwm .awaitFall2 .fault).pwmState = .awaitFall2
    ∧ offset (pwm .awaitFall2 .fault).params.pwmUnderflow 2 = some 0 ∧ 2 ≤ (2 : Word).toNat := by decide
/-- The closing edge that faults. -/
theorem witness_edge_fall2_faults :
    (pwm .awaitFall2 .fault).params.pwmUnderflow = .fault ∧ ((2 : Word).toNat < 2 ∨ (1 : Word).toNat < 2) := by decide
theorem witness_edge_fall2_wrap :
    (pwm .awaitFall2 .wrap).Unmarked ∧ (pwm .awaitFall2 .wrap).mode = .pwm ∧ (pwm .awaitFall2 .wrap).init = true
    ∧ (pwm .awaitFall2 .wrap).pwmState = .awaitFall2 ∧ (pwm .awaitFall2 .wrap).params.pwmUnderflow = .wrap := by decide
theorem witness_edge_fall2_saturate :
    (pwm .awaitFall2 .saturate).Unmarked ∧ (pwm .awaitFall2 .saturate).mode = .pwm
    ∧ (pwm .awaitFall2 .saturate).init = true ∧ (pwm .awaitFall2 .saturate).pwmState = .awaitFall2
    ∧ (pwm .awaitFall2 .saturate).params.pwmUnderflow = .saturate := by decide
theorem witness_edge_not_enabled :
    State.reset.Unmarked ∧ ¬ (State.reset.mode = .pwm ∧ State.reset.init = true) := by decide
/-- The counting clause of R80: one edge from AWAIT_RISE reaches a state with no fault. -/
theorem witness_sequencer_counts :
    nextIs (runInstrs ([((0 : Word), (0 : Word))].map fun c => .edge c.1 c.2) (pwm .awaitRise .wrap))
      (fun t => t.fault == none && t.pwmState == .awaitFall1) = true := by decide
/-- The completion clause of R80. -/
theorem witness_sequencer_completes :
    (pwm .awaitFall1 .saturate).Unmarked ∧ (pwm .awaitFall1 .saturate).mode = .pwm
    ∧ (pwm .awaitFall1 .saturate).init = true ∧ (pwm .awaitFall1 .saturate).params.pwmUnderflow ≠ .fault := by decide
theorem witness_store_read :
    State.reset.Unmarked ∧ (State.reset.params.storeReset = .zero ∨ State.reset.storeValid = true) := by decide
theorem witness_store_read_unwritten :
    unwritten.Unmarked ∧ unwritten.params.storeReset = .unwritten ∧ unwritten.storeValid = false := by decide
/-- A next state of exec that is a delivery, for the statements about every next state. -/
theorem witness_exec_next : nextIs (exec (.rxdone w1) (uart .sent 0 0)) (fun _ => true) = true := by decide
theorem witness_pair_read :
    (uart .sent 30 60).Unmarked ∧ (uart .sent 30 60).mode = .uart ∧ (uart .sent 30 60).rxArmed = true
    ∧ ((uart .sent 30 60).params.storeReset = .zero ∨ (uart .sent 30 60).storeValid = true) := by decide
/-- A step that marks a fault, and one that marks a refusal. -/
theorem witness_marking_steps :
    unwritten.Unmarked ∧ nextIs (exec .getPm25 unwritten) (fun t => t.fault == some .unwrittenRead) = true
    ∧ nextIs (exec .wake State.reset) (fun t => t.refused == some .notInitialised) = true := by decide
/-- A marked state, an instruction that is not RESET, and RESET. -/
theorem witness_marked :
    ¬ ({ State.reset with fault := some .pwmUnderflow } : State).Unmarked ∧ isReset .getPm25 = false
    ∧ isReset .resetUart = true := by decide
/-- A marked state that steps, by RESET. -/
theorem witness_marked_step :
    nextIs (step (pending { State.reset with refused := some .wrongMode } [0x1F, 0x00])) (fun t => t.mode == .uart)
      = true := by decide
theorem witness_marked_reasons :
    ({ State.reset with fault := some .pwmUnderflow } : State).fault = some .pwmUnderflow
    ∧ ({ State.reset with refused := some .wrongMode } : State).fault = none
    ∧ ({ State.reset with refused := some .wrongMode } : State).refused = some .wrongMode := by decide
/-- Default parameters, no fault, and a next state. -/
theorem witness_defaults :
    (pwm .awaitFall2 .wrap).params = Params.default ∧ (pwm .awaitFall2 .wrap).fault = none
    ∧ nextIs (exec (.edge 0 0) (pwm .awaitFall2 .wrap)) (fun t => t.fault == none) = true
    ∧ nextIs (step (pending (pwm .awaitFall2 .wrap) [0x11, 0, 0, 0, 0])) (fun t => t.fault == none) = true := by decide
/-- A host operation with a result, and an event. -/
theorem witness_results :
    isHostOp .getPm10 = true
    ∧ nextIs (exec .getPm10 State.reset) (fun t => t.fault == none && t.refused == none) = true
    ∧ isHostOp (.rxdone w1) = false ∧ isReset (.rxdone w1) = false := by decide
/-- INIT, RESET, and an instruction that is neither, each with a next state. -/
theorem witness_init_writers :
    isInit .init = true ∧ nextIs (exec .init State.reset) (fun _ => true) = true
    ∧ nextIs (exec .resetPwm State.reset) (fun _ => true) = true
    ∧ isInit .getPm25 = false ∧ isReset .getPm25 = false
    ∧ nextIs (exec .getPm25 State.reset) (fun _ => true) = true := by decide
/-- A next state of an instruction that is neither EDGE nor RESET. -/
theorem witness_no_edge :
    isEdge .sleep = false ∧ isReset .sleep = false ∧ nextIs (exec .sleep (uart .sent 0 0)) (fun _ => true) = true := by
  decide
/-- States that meet the invariant in each mode, part by part. -/
theorem witness_invariant_uart : BlockInvariant (pending (uart .sent 0 0) [0x03]) :=
  ⟨by decide, by decide, by decide, by decide, by decide, by decide, by decide⟩
theorem witness_invariant_pwm : BlockInvariant (pending (pwm .awaitFall2 .wrap) [0x11, 0xF6, 0x01, 0x2E, 0x01]) :=
  ⟨by decide, by decide, by decide, by decide, by decide, by decide, by decide⟩
/-- The same two states take a step. -/
theorem witness_invariant_step :
    nextIs (step (pending (uart .sent 0 0) [0x03])) (fun _ => true) = true
    ∧ nextIs (step (pending (pwm .awaitFall2 .wrap) [0x11, 0xF6, 0x01, 0x2E, 0x01])) (fun _ => true) = true := by decide
theorem witness_armed_step :
    ArmedOnceInitialised (pending (uart .sent 0 0) [0x03])
    ∧ nextIs (step (pending (uart .sent 0 0) [0x03])) (fun t => t.rxArmed) = true := by decide
theorem witness_polarity_step :
    PolarityFollowsState (pending (pwm .awaitFall2 .wrap) [0x11, 0xF6, 0x01, 0x2E, 0x01])
    ∧ nextIs (step (pending (pwm .awaitFall2 .wrap) [0x11, 0xF6, 0x01, 0x2E, 0x01])) (fun t => t.capPol == .rising)
      = true := by decide
/-- The guard's last clause, and INIT, which runs none. -/
theorem witness_command_past_guard :
    isCommand .wake = true ∧ (uart .timedOut 0 0).Unmarked ∧ (uart .timedOut 0 0).mode = .uart
    ∧ (uart .timedOut 0 0).init = true ∧ isInit .initPwm = true ∧ State.reset.Unmarked := by decide
theorem witness_reset_pair : (Instr.resetPwm = .resetPwm ∧ Mode.pwm = .pwm) ∧ State.reset.params.storeReset = .zero := by
  decide
theorem witness_decode_of_encode : (Instr.txSetwp 30).wf = true ∧ (Instr.txSetwp 30).selectedIn .pwm = true := by decide
/-- Bytes that decode at the operation level, and ten inbound bytes that are no measurement frame. -/
theorem witness_encode_of_decode :
    decode .uart .op [0x02, 0x2D] = .ok (.setwp 45) ∧ decode .uart .wireIn (bytes10List w2) = .ok (.rxdone w2)
    ∧ decodeFrame w2 = none := by decide
/-- An opcode byte that R57 does not list. -/
theorem witness_unknown_opcode :
    (pending State.reset [0x07]).Unmarked ∧ (pending State.reset [0x07]).input = [⟨.op, [0x07], .sent⟩]
    ∧ (0x07 : Byte) ∉ [0x01, 0x02, 0x03, 0x04, 0x05, 0x06, 0x10, 0x11, (0x1F : Byte)] := by decide
/-- An operation cut short by one byte. -/
theorem witness_cut_short :
    (encode (.setwp 3)).1 = .op ∧ [(0x02 : Byte)] <+: (encode (.setwp 3)).2 ∧ [(0x02 : Byte)] ≠ (encode (.setwp 3)).2 := by
  decide
/-- The least RESET operand that names no mode. -/
theorem witness_bad_reset : (0x02 : Byte) ≠ 0x00 ∧ (0x02 : Byte) ≠ 0x01 := by decide
/-- A pending input that decodes, and an unmarked state with none. -/
theorem witness_step_decodes :
    (pending State.reset [0x01]).input = [⟨.op, [0x01], .sent⟩]
    ∧ decode (pending State.reset [0x01]).mode .op [0x01] = .ok .init
    ∧ State.reset.Unmarked ∧ State.reset.input = [] := by decide
theorem witness_table_word : State.reset.mode = .uart ∧ decodeTableWord 40 0x0111 = some (.edge 1 0) := by decide
/-- A step that takes one of two inputs. -/
theorem witness_step_takes_input :
    nextIs (step { State.reset with input := [⟨.op, [0x05], .sent⟩, ⟨.op, [0x06], .sent⟩] }) (fun t =>
      t.input == [⟨.op, [0x06], .sent⟩]) = true := by decide
theorem witness_draw : isSend (.rxdone w1) = false ∧ nextIs (exec (.rxdone w1) (uart .sent 0 0)) (fun _ => true) = true := by
  decide
theorem witness_commute :
    isCommand .wake = true ∧ (uart .timedOut 0 0).Unmarked ∧ (uart .timedOut 0 0).mode = .uart
    ∧ (uart .timedOut 0 0).init = true ∧ (uart .timedOut 0 0).rxArmed = true := by decide
/-- Two copies, of which the second steps; and a copy whose step is refused, or stopped by its fault. -/
theorem witness_instances :
    [State.reset, pending State.reset [0x05]][1]? = some (pending State.reset [0x05])
    ∧ nextIs (step (pending State.reset [0x05])) (fun _ => true) = true := by decide
theorem witness_instance_stops :
    step (pending State.reset [0x11, 0, 0, 0, 0]) = .refused .edgeNotEnabled
    ∧ step { State.reset with fault := some .pwmUnderflow } = .fault .pwmUnderflow := ⟨rfl, rfl⟩

end Sys2Proof.Machine.Tests
end

section
/-! PROOF. The scope statements (00_scope.md): what a step takes from the agents, and what it leaves alone. -/

namespace Sys2Proof.Machine

/-! ### What a step is, by its next input -/

/-- The state in which the input `x` is processed: it is taken, and its draw presented (R59, R68). -/
def State.taking (s : State) (x : Input) (rest : List Input) : State :=
  { s with input := rest, txStatus := x.status }

@[simp] theorem State.taking_params (s : State) (x : Input) (rest : List Input) :
    (s.taking x rest).params = s.params := rfl
@[simp] theorem State.taking_input (s : State) (x : Input) (rest : List Input) :
    (s.taking x rest).input = rest := rfl

theorem step_of_no_input (s : State) (h : s.input = []) : step s = waitForInput s := by
  simp only [step, fetch, h]

theorem step_of_decoded (s : State) (x : Input) (rest : List Input) (i : Instr) (h : s.input = x :: rest)
    (hd : decode s.mode x.level x.bytes = .ok i) : step s = exec i (s.taking x rest) := by
  simp only [step, fetch, h, hd, State.taking]

theorem step_of_rejected (s : State) (x : Input) (rest : List Input) (e : Reject) (h : s.input = x :: rest)
    (hd : decode s.mode x.level x.bytes = .error e) : step s = rejectInput x.level (s.taking x rest) := by
  simp only [step, fetch, h, hd, State.taking]

/-- Bytes that spell nothing have a next state at the operation level alone: the mark UnknownOp (R57, R58). -/
theorem rejectInput_eq_next (level : Level) (s t : State) (h : rejectInput level s = .next t) :
    s.Unmarked ∧ level = .op ∧ t = { s with refused := some .unknownOp } := by
  obtain ⟨hu, h⟩ := (ifLive_eq_next _ _ _).1 h
  cases level with
  | op => cases h; exact ⟨hu, rfl, rfl⟩
  | wireIn => cases h
  | wireOut => cases h

/-- The one inversion of step: the block waited, or ran the decoded instruction, or marked an unknown operation. -/
theorem step_eq_next (s t : State) (h : step s = .next t) :
    (s.input = [] ∧ s.Unmarked ∧ t = s)
    ∨ ∃ x rest, s.input = x :: rest
      ∧ ((∃ i, decode s.mode x.level x.bytes = .ok i ∧ StepsTo i (s.taking x rest) t)
        ∨ (∃ e, decode s.mode x.level x.bytes = .error e ∧ s.Unmarked ∧ x.level = .op
          ∧ t = { s.taking x rest with refused := some .unknownOp })) := by
  cases hin : s.input with
  | nil =>
    rw [step_of_no_input s hin] at h
    obtain ⟨hu, h⟩ := (ifLive_eq_next _ _ _).1 h
    cases h
    exact .inl ⟨rfl, hu, rfl⟩
  | cons x rest =>
    refine .inr ⟨x, rest, rfl, ?_⟩
    cases hd : decode s.mode x.level x.bytes with
    | ok i =>
      rw [step_of_decoded s x rest i hin hd] at h
      exact .inl ⟨i, rfl, exec_stepsTo i _ t h⟩
    | error e =>
      rw [step_of_rejected s x rest e hin hd] at h
      exact .inr ⟨e, rfl, rejectInput_eq_next _ _ t h⟩

/-! ### What no instruction touches -/

/-- STORE_RESET and PWM_UNDERFLOW are no instruction's to write, RESET's neither (R6, R7; log 4, log 18). -/
theorem StepsTo.params_eq {i : Instr} {s t : State} (h : StepsTo i s t) : t.params = s.params := by
  cases h <;> simp

/-- The agents' pending inputs are no instruction's to write, RESET's neither (R16; log 2, log 18). -/
theorem StepsTo.input_eq {i : Instr} {s t : State} (h : StepsTo i s t) : t.input = s.input := by
  cases h <;> simp

/-! ### The obligations on a step -/

/-- Settles O47: waiting, running an instruction and marking an unknown operation all keep both parameters. -/
theorem parametersAreConstant : Obligations.ParametersAreConstant := by
  intro s t h
  obtain ⟨-, -, rfl⟩ | ⟨x, rest, -, ⟨i, -, hi⟩ | ⟨e, -, -, -, rfl⟩⟩ := step_eq_next s t h
  · rfl
  · exact hi.params_eq
  · rfl

/-- Settles O55: a step takes the first input before it does anything else, and what it then does leaves the others;
a block that waits has none to take. -/
theorem stepTakesOneInputInOrder : Obligations.StepTakesOneInputInOrder := by
  intro s t h
  obtain ⟨hin, -, rfl⟩ | ⟨x, rest, hin, ⟨i, -, hi⟩ | ⟨e, -, -, -, rfl⟩⟩ := step_eq_next s t h
  · rw [hin, List.tail_nil]
  · rw [hin, hi.input_eq, State.taking_input, List.tail_cons]
  · rw [hin, List.tail_cons]
    exact State.taking_input s x rest

/-- Settles O52: the equations of step for a decoded input and for none. -/
theorem stepRunsDecodedInstruction : Obligations.StepRunsDecodedInstruction := by
  refine ⟨step_of_decoded, fun s hu hin => ?_⟩
  rw [step_of_no_input s hin]
  exact ifLive_of_unmarked s .next hu

/-! ### Several copies -/

/-! The three answers of copy `k`'s step (R11, R95; log 16). -/

theorem stepInstance_of_next (k : Nat) (copies : List State) (s t : State) (hk : copies[k]? = some s)
    (h : step s = .next t) : stepInstance k copies = some (.next (copies.set k t)) := by
  simp only [stepInstance, hk, h]

theorem stepInstance_of_fault (k : Nat) (copies : List State) (s : State) (r : Fault) (hk : copies[k]? = some s)
    (h : step s = .fault r) : stepInstance k copies = some (.fault r) := by
  simp only [stepInstance, hk, h]

theorem stepInstance_of_refused (k : Nat) (copies : List State) (s : State) (r : Refusal) (hk : copies[k]? = some s)
    (h : step s = .refused r) : stepInstance k copies = some (.refused r) := by
  simp only [stepInstance, hk, h]

/-- Settles O59: a next state of copy `k` replaces element `k` of the list and no other; a stop is the step's own. -/
theorem instancesShareNothing : Obligations.InstancesShareNothing := by
  intro k copies s hk
  obtain ⟨hlt, -⟩ := List.getElem?_eq_some_iff.1 hk
  refine ⟨fun t ht => ⟨copies.set k t, stepInstance_of_next k copies s t hk ht, List.length_set, ?_, ?_⟩,
    fun r => stepInstance_of_fault k copies s r hk, fun r => stepInstance_of_refused k copies s r hk⟩
  · exact List.getElem?_set_self hlt
  · exact fun j hj => List.getElem?_set_ne (Ne.symm hj)

end Sys2Proof.Machine
end

section
/-! PROOF. The state rules (10_state.md): which instruction may write which field, where an event has no step, and
the invariant of the block. -/

namespace Sys2Proof.Machine

/-! ### The reset state -/

/-- Settles O45: each field of the reset state, read off. -/
theorem resetStateHasSpecValues : Obligations.ResetStateHasSpecValues :=
  ⟨rfl, rfl, rfl, rfl, rfl, rfl, rfl, rfl, rfl, rfl, rfl, rfl⟩

/-! ### Events that are not enabled (R17, R70, R75; log 9) -/

theorem deliver_of_not_enabled (b : Bytes10) (s : State) (h : ¬ (s.mode = .uart ∧ s.rxArmed = true)) :
    deliver b s = .refused .rxNotEnabled := by
  have hn : ¬ rxEnabled s = true := by simpa [rxEnabled] using h
  simp only [deliver, if_neg hn]

theorem captureEdge_of_not_enabled (c10 c25 : Word) (s : State) (h : ¬ (s.mode = .pwm ∧ s.init = true)) :
    captureEdge c10 c25 s = .refused .edgeNotEnabled := by
  have hn : ¬ edgeEnabled s = true := by simpa [edgeEnabled] using h
  simp only [captureEdge, if_neg hn]

/-- Settles O20: both deliveries run `deliver`, which refuses where it is not enabled. -/
theorem deliveryHasNoStepUnlessArmed : Obligations.DeliveryHasNoStepUnlessArmed := by
  intro i s hi hu h
  cases i with
  | rxdone b => rw [exec_rxdone_of_unmarked b s hu, deliver_of_not_enabled b s h]
  | rxMeas a c d => rw [exec_rxMeas_of_unmarked a c d s hu, deliver_of_not_enabled _ s h]
  | _ => cases hi

/-- Settles O28: an unmarked EDGE runs `captureEdge`, which refuses where it is not enabled. -/
theorem edgeHasNoStepUnlessEnabled : Obligations.EdgeHasNoStepUnlessEnabled := by
  intro c10 c25 s hu h
  rw [exec_edge_of_unmarked c10 c25 s hu, captureEdge_of_not_enabled c10 c25 s h]

section Steps

variable {i : Instr} {s t : State}

/-! ### Which instruction may write which field -/

/-- RESET answers the reset state of the mode it names, and nothing else (R97). -/
theorem StepsTo.eq_resetTo (h : StepsTo i s t) (hr : isReset i = true) : ∃ m, t = resetTo m s := by
  cases i with
  | resetUart =>
    cases h with
    | resetUart => exact ⟨.uart, rfl⟩
    | _ => simp_all [isInit, isCommand]
  | resetPwm =>
    cases h with
    | resetPwm => exact ⟨.pwm, rfl⟩
    | _ => simp_all [isInit, isCommand]
  | _ => cases hr

theorem StepsTo.mode_eq (h : StepsTo i s t) (hr : isReset i = false) : t.mode = s.mode := by
  cases h with
  | resetUart | resetPwm => cases hr
  | _ => simp

theorem StepsTo.init_of_isInit (h : StepsTo i s t) (hi : isInit i = true) : t.init = true := by
  cases i with
  | init | initPwm =>
    cases h with
    | initUart => exact initUart_init s
    | initPwm => exact initPwm_init s
    | _ => simp_all [isCommand]
  | _ => cases hi

theorem StepsTo.init_eq (h : StepsTo i s t) (hi : isInit i = false) (hr : isReset i = false) : t.init = s.init := by
  cases h with
  | resetUart | resetPwm => cases hr
  | initUart _ _ hinit | initPwm _ _ hinit => exact absurd hinit (by simp [hi])
  | _ => simp

theorem StepsTo.sequencer_eq (h : StepsTo i s t) (he : isEdge i = false) (hr : isReset i = false) :
    t.pwmState = s.pwmState ∧ t.capPol = s.capPol := by
  cases h with
  | resetUart | resetPwm => cases hr
  | edgeRise | edgeFall1 | edgeStore | edgeFault => cases he
  | _ => simp

/-! ### What is emitted (R26, R50 to R52) -/

/-- The clamp is stable, so a set-working-period frame is the encoding of its own period byte (R50, R63). -/
theorem encodeSetWorkingPeriod_clampPeriod (p : Byte) :
    encodeSetWorkingPeriod (clampPeriod p) = encodeSetWorkingPeriod p := by
  have hle : (clampPeriod p).toNat ≤ 30 := by rw [clampPeriod_toNat]; omega
  simp only [encodeSetWorkingPeriod, clampPeriod_of_le _ hle]

/-- The outbound decoder accepts every frame that the block sends for a period (R50). -/
theorem decodeWireOut_encodeSetWorkingPeriod (p : Byte) :
    (decodeWireOut (encodeSetWorkingPeriod p)).toBool = true := by
  have hq : (encodeSetWorkingPeriod p).getD 4 0 = clampPeriod p := rfl
  have hle : clampPeriod p ≤ wpMax := by
    rw [BitVec.le_def, clampPeriod_toNat]
    exact Nat.min_le_right _ _
  unfold decodeWireOut
  simp only [hq, encodeSetWorkingPeriod_clampPeriod, hle, and_self, if_true]
  split_ifs <;> rfl

@[simp] theorem outAllowed_arm : outAllowed .uart (.arm 10) = true := rfl
@[simp] theorem outAllowed_setwp (p : Byte) (st : TxStatus) :
    outAllowed .uart (.tx (encodeSetWorkingPeriod p) st) = true := decodeWireOut_encodeSetWorkingPeriod p
@[simp] theorem outAllowed_sleep (st : TxStatus) : outAllowed .uart (.tx encodeSleepCommand st) = true := rfl
@[simp] theorem outAllowed_wake (st : TxStatus) : outAllowed .uart (.tx encodeWakeByte st) = true := rfl
@[simp] theorem outAllowed_counterReset : outAllowed .pwm .counterReset = true := rfl
@[simp] theorem outAllowed_setPolarity (p : Polarity) : outAllowed .pwm (.setPolarity p) = true := rfl

/-- What an instruction other than RESET adds to the history is what the mode may emit. -/
theorem StepsTo.appends_allowed (h : StepsTo i s t) (hr : isReset i = false) :
    ∃ new, t.H = s.H ++ new ∧ ∀ o ∈ new, outAllowed s.mode o = true := by
  cases h with
  | resetUart | resetPwm => cases hr
  | initUart _ _ _ _ hm => exact ⟨_, (initUart_H s).trans (List.append_assoc ..), by rw [hm]; split <;> simp⟩
  | setwp _ _ _ hm | sleep _ _ hm => exact ⟨_, sendAndReply_H _ s, by simp [hm]⟩
  | wake _ _ hm => exact ⟨_, (wakeAndReply_H s).trans (List.append_assoc ..), by rw [hm]; split <;> simp⟩
  | delivery _ b _ _ _ hm => exact ⟨_, receive_H b s, by simp [hm]⟩
  | txSetwp _ _ _ hm | txSleep _ _ hm | txWake _ _ hm => exact ⟨_, emit_H _ s, by simp [hm]⟩
  | edgeRise _ _ _ _ hm => exact ⟨_, edgeRise_H s, by simp [hm]⟩
  | edgeStore _ _ _ _ _ _ hm => exact ⟨_, rfl, by simp [hm]⟩
  | _ => exact ⟨[], by simp, nofun⟩

/-! ### What is returned (R17; log 8) -/

theorem isHostOp_of_isInit (h : isInit i = true) : isHostOp i = true := by
  cases i with
  | init | initPwm => rfl
  | _ => cases h

/-- A completed host operation appends one result; the marks are the only other way it can step. -/
theorem StepsTo.returns_one_result (h : StepsTo i s t) (hi : isHostOp i = true) (hu : t.Unmarked) :
    ∃ r, t.hostRes = s.hostRes ++ [r] := by
  obtain ⟨hf, hn⟩ := hu
  cases h with
  | initUart => exact ⟨_, initUart_hostRes s⟩
  | initPwm => exact ⟨_, initPwm_hostRes s⟩
  | setwp | sleep => exact ⟨_, sendAndReply_hostRes _ s⟩
  | wake => exact ⟨_, wakeAndReply_hostRes s⟩
  | getPm25 | getPm10 => exact ⟨_, reply_hostRes _ s⟩
  | wrongMode | notInitialised => cases hn
  | unwritten => cases hf
  | delivery _ _ _ hd => obtain rfl | ⟨_, _, _, rfl, -⟩ := hd <;> cases hi
  | _ => cases hi

theorem StepsTo.hostRes_eq (h : StepsTo i s t) (hi : isHostOp i = false) (hr : isReset i = false) :
    t.hostRes = s.hostRes := by
  cases h with
  | resetUart | resetPwm => cases hr
  | initUart _ _ hinit | initPwm _ _ hinit => exact absurd (isHostOp_of_isInit hinit) (by simp [hi])
  | setwp | sleep | wake | getPm25 | getPm10 => cases hi
  | _ => simp

/-! ### The invariant of the block, part by part -/

/-- R34: an edge moves polarity and state together, RESET restores both, and nothing else moves either. -/
theorem StepsTo.keeps_polarityFollowsState (h : StepsTo i s t) (hs : PolarityFollowsState s) :
    PolarityFollowsState t := by
  unfold PolarityFollowsState at *
  cases h with
  | edgeFall1 _ _ _ _ _ _ hp => simpa [hp] using hs
  | _ => simp [hs]

/-- R33: INIT arms, WAKE never disarms, a delivery re-arms, and RESET, which drops the request, clears `init`. -/
theorem StepsTo.keeps_armedOnceInitialised (h : StepsTo i s t) (hs : ArmedOnceInitialised s) :
    ArmedOnceInitialised t := by
  intro hm hn
  cases h with
  | resetUart | resetPwm => cases hn
  | initUart => exact initUart_rxArmed s
  | initPwm _ _ _ _ hpwm => exact absurd (hpwm.symm.trans hm) nofun
  | delivery => exact receive_rxArmed _ s
  | wake _ _ huart hinit => simp [hs huart hinit]
  | _ => simpa using hs (by simpa using hm) (by simpa using hn)

/-- R99: RESET is quiet, INIT ends the quiet, and before INIT a delivery is not armed and every guard fails. -/
theorem StepsTo.keeps_quietBeforeInit (h : StepsTo i s t) (hs : QuietBeforeInit s) : QuietBeforeInit t := by
  intro hn
  cases h with
  | resetUart | resetPwm => exact ⟨rfl, rfl, rfl, rfl⟩
  | initUart | initPwm => simp at hn
  | delivery _ b _ _ _ _ harmed =>
    obtain ⟨hunarmed, -⟩ := hs ((receive_init b s).symm.trans hn)
    exact absurd (harmed.symm.trans hunarmed) nofun
  | wrongMode | notInitialised | unwritten | getPm25 | getPm10 => exact hs hn
  | _ => simp_all

/-- R5: what arms or delivers runs in MODE = UART, what moves the sequencer runs in MODE = PWM. -/
theorem StepsTo.keeps_modesApart (h : StepsTo i s t) (hs : ModesApart s) : ModesApart t := by
  obtain ⟨huart, hpwm⟩ := hs
  cases h with
  | resetUart | resetPwm => simp [ModesApart]
  | initUart _ _ _ _ hm | delivery _ _ _ _ _ hm => simp [ModesApart, hm, huart hm]
  | wake _ _ hm => simp [ModesApart, hm, huart hm]
  | edgeRise _ _ _ _ hm | edgeFall1 _ _ _ _ hm | edgeStore _ _ _ _ _ _ hm => simp [ModesApart, hm, hpwm hm]
  | _ => exact ⟨huart, hpwm⟩

/-- Only entries the mode allows are appended, and RESET, which alone changes the mode, empties the history. -/
theorem StepsTo.keeps_historyOfMode (h : StepsTo i s t) (hs : HistoryOfMode s) : HistoryOfMode t := by
  cases hr : isReset i with
  | true =>
    obtain ⟨m, rfl⟩ := h.eq_resetTo hr
    exact nofun
  | false =>
    obtain ⟨new, hH, hnew⟩ := h.appends_allowed hr
    unfold HistoryOfMode
    rw [hH, h.mode_eq hr]
    exact fun o ho => (List.mem_append.1 ho).elim (hs o) (hnew o)

theorem marksGrounded_of_unmarked (h : s.Unmarked) : MarksGrounded s := by
  obtain ⟨hf, hr⟩ := h
  simp [MarksGrounded, hf, hr]

/-- A step sets at most one mark, and only from an unmarked state where the mark's ground holds (R66, R74, R82, R83). -/
theorem StepsTo.marksGrounded (h : StepsTo i s t) : MarksGrounded t := by
  cases h with
  | resetUart | resetPwm => exact marksGrounded_of_unmarked ⟨rfl, rfl⟩
  | wrongMode _ _ _ hu hm => simp [MarksGrounded, hu.1, hm]
  | notInitialised _ _ _ hu hm hn => simp [MarksGrounded, hu.1, hm, hn]
  | unwritten _ _ _ hu hp hv => simp [MarksGrounded, hu.2, hp, hv]
  | edgeFault c10 c25 _ hu hm _ _ ho =>
    have hp : s.params.pwmUnderflow = .fault :=
      ho.elim (fun h10 => ((offset_eq_none _ c10).1 h10).1) (fun h25 => ((offset_eq_none _ c25).1 h25).1)
    simp [MarksGrounded, hu.2, hp, hm]
  | _ => exact marksGrounded_of_unmarked (by simpa [State.Unmarked])

theorem scaleRaw_le (v : Word) : (scaleRaw v).toNat ≤ 6553 := by
  have := v.isLt
  rw [scaleRaw_toNat]
  omega

/-- A decoded frame carries tenths of 16-bit fields (R61). -/
theorem decodeFrame_le (b : Bytes10) (v25 v10 : Word) (h : decodeFrame b = some (v25, v10)) :
    v25.toNat ≤ 6553 ∧ v10.toNat ≤ 6553 := by
  unfold decodeFrame at h
  split_ifs at h
  cases h
  exact ⟨scaleRaw_le _, scaleRaw_le _⟩

/-- A delivery stores a decoded pair or nothing, and leaves the store's range as it was otherwise. -/
theorem receive_keeps_storeInRange (b : Bytes10) (hs : StoreInRange s) : StoreInRange (receive b s) := by
  unfold StoreInRange at *
  cases hd : decodeFrame b with
  | none => simpa [hd] using hs
  | some v =>
    obtain ⟨v25, v10⟩ := v
    simp [hd, decodeFrame_le b v25 v10 hd]

/-- R20 and R61: RESET zeroes the store where STORE_RESET says so, and only a delivery writes it in MODE = UART. -/
theorem StepsTo.keeps_storeInRange (h : StepsTo i s t) (hs : StoreInRange s) : StoreInRange t := by
  cases h with
  | resetUart | resetPwm => simp +contextual [StoreInRange, resetTo_pm25, resetTo_pm10]
  | delivery _ b => exact receive_keeps_storeInRange b hs
  | edgeStore _ _ _ _ _ _ hm => simp [StoreInRange, hm]
  | _ => simpa [StoreInRange] using hs

/-! ### The invariant of the block -/

theorem StepsTo.keeps_blockInvariant (h : StepsTo i s t) (hs : BlockInvariant s) : BlockInvariant t := by
  obtain ⟨hpol, harm, hquiet, hmodes, hhist, -, hstore⟩ := hs
  exact ⟨h.keeps_polarityFollowsState hpol, h.keeps_armedOnceInitialised harm, h.keeps_quietBeforeInit hquiet,
    h.keeps_modesApart hmodes, h.keeps_historyOfMode hhist, h.marksGrounded, h.keeps_storeInRange hstore⟩

/-- The mark UnknownOp needs no ground but the bytes themselves (R57, R58), and leaves the other parts as they are. -/
theorem unknownOp_keeps_blockInvariant (hu : s.Unmarked) (hs : BlockInvariant s) :
    BlockInvariant { s with refused := some .unknownOp } := by
  obtain ⟨hpol, harm, hquiet, hmodes, hhist, -, hstore⟩ := hs
  exact ⟨hpol, harm, hquiet, hmodes, hhist, by simp [MarksGrounded, hu.1], hstore⟩

/-- The invariant speaks neither of the pending inputs nor of the presented draw. -/
theorem taking_blockInvariant (x : Input) (rest : List Input) (hs : BlockInvariant s) :
    BlockInvariant (s.taking x rest) := hs

end Steps

/-! ### The obligations on every instruction and on the step -/

/-- Settles O36: the result of a completed host operation, and the untouched port of an event. -/
theorem hostOperationsReturnOneResult : Obligations.HostOperationsReturnOneResult :=
  fun i s t h => ⟨(exec_stepsTo i s t h).returns_one_result, (exec_stepsTo i s t h).hostRes_eq⟩

/-- Settles O37: INIT sets, RESET clears, every other instruction keeps. -/
theorem initSetByInitAndClearedByReset : Obligations.InitSetByInitAndClearedByReset := by
  intro i s t h
  have hs := exec_stepsTo i s t h
  refine ⟨hs.init_of_isInit, fun hr => ?_, hs.init_eq⟩
  obtain ⟨m, rfl⟩ := hs.eq_resetTo hr
  exact resetTo_init m s

/-- Settles O38: outside EDGE and RESET the sequencer's two fields are framed. -/
theorem sequencerMovedOnlyByEdge : Obligations.SequencerMovedOnlyByEdge :=
  fun i s t h => (exec_stepsTo i s t h).sequencer_eq

/-- Settles O39: what is emitted is appended, and RESET starts over. -/
theorem historyIsAppendOnly : Obligations.HistoryIsAppendOnly := by
  intro i s t h
  have hs := exec_stepsTo i s t h
  refine ⟨fun hr => ?_, fun hr => ?_⟩
  · obtain ⟨new, hH, -⟩ := hs.appends_allowed hr
    exact ⟨new, hH.symm⟩
  · obtain ⟨m, rfl⟩ := hs.eq_resetTo hr
    exact resetTo_H m s

/-- Settles O43: waiting changes nothing, an instruction keeps every part, and an unknown operation only marks. -/
theorem stepKeepsInvariant : Obligations.StepKeepsInvariant := by
  intro s t hs h
  obtain ⟨-, -, rfl⟩ | ⟨x, rest, -, ⟨i, -, hi⟩ | ⟨e, -, hu, -, rfl⟩⟩ := step_eq_next s t h
  · exact hs
  · exact hi.keeps_blockInvariant (taking_blockInvariant x rest hs)
  · exact unknownOp_keeps_blockInvariant hu (taking_blockInvariant x rest hs)

end Sys2Proof.Machine
end

section
/-! PROOF. The memory statements (20_memory.md): a pair of reads around a delivery, and what the pending inputs cannot
change. -/

namespace Sys2Proof.Machine

/-! ### What the shared operations answer where they are enabled -/

/-- A store that holds a value is read (R82, R83). -/
theorem readStore_of_readable (value : State → Word) (s : State)
    (h : s.params.storeReset = .zero ∨ s.storeValid = true) :
    readStore value s = .next (reply (.value (value s)) s) := by
  refine if_neg ?_
  rintro ⟨hp, hv⟩
  obtain hz | hw := h
  · cases hz.symm.trans hp
  · cases hw.symm.trans hv

theorem deliver_of_armed (b : Bytes10) (s : State) (hm : s.mode = .uart) (ha : s.rxArmed = true) :
    deliver b s = .next (receive b s) :=
  if_pos (by simp [rxEnabled, hm, ha])

theorem transmit_of_ready (bytes : List Byte) (s : State) (hm : s.mode = .uart) (hi : s.init = true) :
    transmit bytes s = .next (emit (.tx bytes s.txStatus) s) :=
  if_pos (by simp [txEnabled, hm, hi])

theorem commandGuard_of_pwm (s : State) (k : State → Result) (hm : s.mode = .pwm) :
    commandGuard s k = raiseRefused .wrongMode s :=
  if_pos (by simp [hm])

theorem commandGuard_of_not_init (s : State) (k : State → Result) (hm : s.mode = .uart) (hi : s.init = false) :
    commandGuard s k = raiseRefused .notInitialised s := by
  simp [commandGuard, hm, hi]

theorem captureEdge_of_awaitRise (c10 c25 : Word) (s : State) (hm : s.mode = .pwm) (hi : s.init = true)
    (hp : s.pwmState = .awaitRise) : captureEdge c10 c25 s = .next (edgeRise s) := by
  simp [captureEdge, edgeEnabled, hm, hi, hp]

theorem captureEdge_of_awaitFall1 (c10 c25 : Word) (s : State) (hm : s.mode = .pwm) (hi : s.init = true)
    (hp : s.pwmState = .awaitFall1) : captureEdge c10 c25 s = .next (edgeFall1 s) := by
  simp [captureEdge, edgeEnabled, hm, hi, hp]

theorem captureEdge_of_awaitFall2 (c10 c25 : Word) (s : State) (hm : s.mode = .pwm) (hi : s.init = true)
    (hp : s.pwmState = .awaitFall2) : captureEdge c10 c25 s = edgeFall2 c10 c25 s := by
  simp [captureEdge, edgeEnabled, hm, hi, hp]

/-- The valid measurement frame decodes to the tenths of its two raw fields (R49, R61). -/
theorem decodeFrame_measurementFrame (raw25 raw10 devId : Word) :
    decodeFrame (measurementFrame raw25 raw10 devId) = some (scaleRaw raw25, scaleRaw raw10) := by
  have hsum : checksum (bytes10List (measurementFrame raw25 raw10 devId)) 2 7
      = (measurementFrame raw25 raw10 devId).b8 := rfl
  simp only [decodeFrame, hsum]
  simp [measurementFrame]

/-! ### A pair of reads around a delivery (R43) -/

theorem runInstrs_cons_of_next (i : Instr) (is : List Instr) (s t : State) (h : exec i s = .next t) :
    runInstrs (i :: is) s = runInstrs is t := by
  simp only [runInstrs, h]

theorem exec_getPm25_of_readable (s : State) (hu : s.Unmarked)
    (h : s.params.storeReset = .zero ∨ s.storeValid = true) :
    exec .getPm25 s = .next (reply (.value s.pm25) s) := by
  rw [exec_getPm25_of_unmarked s hu, readStore_of_readable _ s h]

theorem exec_getPm10_of_readable (s : State) (hu : s.Unmarked)
    (h : s.params.storeReset = .zero ∨ s.storeValid = true) :
    exec .getPm10 s = .next (reply (.value s.pm10) s) := by
  rw [exec_getPm10_of_unmarked s hu, readStore_of_readable _ s h]

theorem exec_rxMeas_of_armed (raw25 raw10 devId : Word) (s : State) (hu : s.Unmarked) (hm : s.mode = .uart)
    (ha : s.rxArmed = true) :
    exec (.rxMeas raw25 raw10 devId) s = .next (receive (measurementFrame raw25 raw10 devId) s) := by
  rw [exec_rxMeas_of_unmarked _ _ _ s hu, deliver_of_armed _ s hm ha]

/-- Settles O32: the delivery between the two reads leaves the first result and replaces the value behind the second. -/
theorem pairReadMayStraddleUpdate : Obligations.PairReadMayStraddleUpdate := by
  intro raw25 raw10 devId s hu hm ha hr
  have hdec := decodeFrame_measurementFrame raw25 raw10 devId
  let afterRead := reply (.value s.pm25) s
  let afterDelivery := receive (measurementFrame raw25 raw10 devId) afterRead
  have hu' : afterDelivery.Unmarked := by simpa [afterDelivery, afterRead, State.Unmarked] using hu
  have hv' : afterDelivery.storeValid = true := by simp [afterDelivery, hdec]
  refine ⟨reply (.value afterDelivery.pm10) afterDelivery, ?_, ?_⟩
  · rw [runInstrs_cons_of_next _ _ s _ (exec_getPm25_of_readable s hu hr),
      runInstrs_cons_of_next _ _ afterRead _ (exec_rxMeas_of_armed raw25 raw10 devId afterRead hu hm ha),
      runInstrs_cons_of_next _ _ afterDelivery _ (exec_getPm10_of_readable afterDelivery hu' (.inr hv')), runInstrs]
  · simp [afterDelivery, afterRead, hdec, scaleRaw, serialDivisor]

/-! ### Other pending inputs (R42) -/

/-- The same state with other inputs still to come. -/
def State.withPending (s : State) (pending : List Input) : State := { s with input := pending }

/-- A completed operation completes with any other pending inputs, and leaves the same state but for them. -/
def IgnoresPending (op : State → Result) : Prop :=
  ∀ (s t : State) (pending : List Input), op s = .next t →
    op (s.withPending pending) = .next (t.withPending pending)

theorem armRx_withPending (s : State) (pending : List Input) :
    armRx (s.withPending pending) = (armRx s).withPending pending := by
  unfold armRx
  cases ha : s.rxArmed <;> simp [ha, State.withPending, emit]

theorem initUart_withPending (s : State) (pending : List Input) :
    initUart (s.withPending pending) = (initUart s).withPending pending :=
  congrArg (reply (sendResult s.txStatus))
    (armRx_withPending (txSend (encodeSetWorkingPeriod 0) { s with init := true }).2 pending)

theorem initialise_withPending (s : State) (pending : List Input) :
    initialise (s.withPending pending) = (initialise s).withPending pending := by
  have hm : (s.withPending pending).mode = s.mode := rfl
  unfold initialise
  rw [hm]
  cases s.mode with
  | uart => exact initUart_withPending s pending
  | pwm => rfl

theorem wakeAndReply_withPending (s : State) (pending : List Input) :
    wakeAndReply (s.withPending pending) = (wakeAndReply s).withPending pending := by
  unfold wakeAndReply
  by_cases hs : s.txStatus = .sent
  · have hs' : (s.withPending pending).txStatus = .sent := hs
    simp only [txSend_fst, txSend_snd, hs, hs', if_true]
    exact congrArg (reply (sendResult .sent)) (armRx_withPending (emit (.tx encodeWakeByte .sent) s) pending)
  · have hs' : ¬ (s.withPending pending).txStatus = .sent := hs
    simp only [txSend_fst, txSend_snd, hs, hs', if_false]
    rfl

theorem receive_withPending (b : Bytes10) (s : State) (pending : List Input) :
    receive b (s.withPending pending) = (receive b s).withPending pending := by
  let taken : State := { s with rxArmed := false, rxBuf := b }
  cases hd : decodeFrame b with
  | none =>
    simp only [receive, hd]
    exact armRx_withPending taken pending
  | some v =>
    simp only [receive, hd]
    exact armRx_withPending (storeWrite v.1 v.2 taken) pending

theorem ignoresPending_next (f : State → State)
    (hf : ∀ s pending, f (s.withPending pending) = (f s).withPending pending) :
    IgnoresPending fun s => .next (f s) := by
  intro s t pending h
  cases h
  exact congrArg Host.Outcome.next (hf s pending)

theorem IgnoresPending.ifLive {op : State → Result} (hop : IgnoresPending op) :
    IgnoresPending fun s => ifLive s op := by
  intro s t pending h
  obtain ⟨hu, h⟩ := (ifLive_eq_next s t op).1 h
  exact (ifLive_eq_next _ _ _).2 ⟨hu, hop s t pending h⟩

/-- The guard reads MODE and `init` alone, and its marks are set the same way (R66). -/
theorem IgnoresPending.commandGuard {op : State → Result} (hop : IgnoresPending op) :
    IgnoresPending fun s => commandGuard s op := by
  intro s t pending h
  obtain ⟨hm, hi, h⟩ | ⟨hm, rfl⟩ | ⟨hm, hi, rfl⟩ := commandGuard_eq_next s t op h
  · exact (commandGuard_of_ready (s.withPending pending) op hm hi).trans (hop s t pending h)
  · exact commandGuard_of_pwm _ op hm
  · exact commandGuard_of_not_init _ op hm hi

theorem readStore_ignoresPending (value : State → Word)
    (hv : ∀ s pending, value (s.withPending pending) = value s) : IgnoresPending (readStore value) := by
  intro s t pending h
  by_cases hn : s.params.storeReset = .unwritten ∧ s.storeValid = false
  · rw [readStore, if_pos hn] at h
    cases h
    exact if_pos hn
  · rw [readStore, if_neg hn] at h
    cases h
    rw [readStore, hv]
    exact if_neg hn

theorem deliver_ignoresPending (b : Bytes10) : IgnoresPending (deliver b) := by
  intro s t pending h
  obtain ⟨hm, ha, rfl⟩ := deliver_eq_next b s t h
  rw [deliver_of_armed b (s.withPending pending) hm ha, receive_withPending]

theorem transmit_ignoresPending (bytes : List Byte) : IgnoresPending (transmit bytes) := by
  intro s t pending h
  obtain ⟨hm, hi, rfl⟩ := transmit_eq_next bytes s t h
  exact transmit_of_ready bytes _ hm hi

theorem edgeFall2_ignoresPending (c10 c25 : Word) : IgnoresPending (edgeFall2 c10 c25) := by
  intro s t pending h
  have hp : (s.withPending pending).params = s.params := rfl
  unfold edgeFall2 at h ⊢
  rw [hp]
  split at h <;> cases h <;> rfl

theorem captureEdge_ignoresPending (c10 c25 : Word) : IgnoresPending (captureEdge c10 c25) := by
  intro s t pending h
  obtain ⟨hm, hi, ⟨hp, rfl⟩ | ⟨hp, rfl⟩ | ⟨hp, h⟩⟩ := captureEdge_eq_next c10 c25 s t h
  · exact captureEdge_of_awaitRise c10 c25 _ hm hi hp
  · exact captureEdge_of_awaitFall1 c10 c25 _ hm hi hp
  · rw [captureEdge_of_awaitFall2 c10 c25 (s.withPending pending) hm hi hp]
    exact edgeFall2_ignoresPending c10 c25 s t pending h

theorem exec_ignoresPending (i : Instr) : IgnoresPending (exec i) := by
  cases i with
  | init => exact (ignoresPending_next _ initialise_withPending).ifLive
  | initPwm => exact (ignoresPending_next _ initialise_withPending).ifLive
  | setwp p => exact (ignoresPending_next (sendAndReply _) fun _ _ => rfl).commandGuard.ifLive
  | sleep => exact (ignoresPending_next (sendAndReply _) fun _ _ => rfl).commandGuard.ifLive
  | wake => exact (ignoresPending_next _ wakeAndReply_withPending).commandGuard.ifLive
  | getPm25 => exact (readStore_ignoresPending State.pm25 fun _ _ => rfl).ifLive
  | getPm10 => exact (readStore_ignoresPending State.pm10 fun _ _ => rfl).ifLive
  | rxdone b => exact (deliver_ignoresPending b).ifLive
  | edge c10 c25 => exact (captureEdge_ignoresPending c10 c25).ifLive
  | resetUart => exact ignoresPending_next (resetTo .uart) fun _ _ => rfl
  | resetPwm => exact ignoresPending_next (resetTo .pwm) fun _ _ => rfl
  | rxMeas raw25 raw10 devId => exact (deliver_ignoresPending _).ifLive
  | txSetwp q => exact (transmit_ignoresPending _).ifLive
  | txSleep => exact (transmit_ignoresPending _).ifLive
  | txWake => exact (transmit_ignoresPending _).ifLive

/-- Settles O56: no rule reads the pending inputs, and none writes them. -/
theorem pendingInputsDoNotMatter : Obligations.PendingInputsDoNotMatter := exec_ignoresPending

end Sys2Proof.Machine
end

section
/-! PROOF. The encoding statements (30_encoding.md): the encoder and the decoder of both levels invert each other, what
spells no operation is refused, and what the table's words and the program lines of R59 stand for. -/

namespace Sys2Proof.Machine

/-! ### The operation level (R57, R58) -/

theorem opLength_eq_none (op : Byte) (h : op ∉ opFormats.map Prod.fst) : opLength op = none := by
  refine Option.map_eq_none_iff.2 (List.find?_eq_none.2 fun row hrow e => h ?_)
  rw [← eq_of_beq e]
  exact List.mem_map_of_mem hrow

theorem decodeOp_of_unassigned (m : Mode) (op : Byte) (args : List Byte) (h : opLength op = none) :
    decodeOp m (op :: args) = .error (.unassigned op) := by
  simp only [decodeOp, h]

theorem decodeOp_of_short (m : Mode) (op : Byte) (args : List Byte) (n : Nat) (h : opLength op = some n)
    (hlt : args.length + 1 < n) : decodeOp m (op :: args) = .error .cutShort := by
  simp only [decodeOp, h, if_pos hlt]

theorem decodeOp_of_length (m : Mode) (op : Byte) (args : List Byte) (h : opLength op = some (args.length + 1)) :
    decodeOp m (op :: args) = decodeArgs m op args := by
  simp only [decodeOp, h, lt_irrefl, if_false]

/-- Bytes that decode at the operation level are an opcode byte with operands of the length R57 gives it. -/
theorem decodeOp_eq_ok (m : Mode) (bytes : List Byte) (i : Instr) (h : decodeOp m bytes = .ok i) :
    ∃ op args, bytes = op :: args ∧ opLength op = some (args.length + 1) ∧ decodeArgs m op args = .ok i := by
  unfold decodeOp at h
  split at h
  · cases h
  · split at h
    · cases h
    · rename_i op args _ n hn
      split_ifs at h with hshort hlong
      have hlen : n = args.length + 1 := by omega
      exact ⟨op, args, rfl, hlen ▸ hn, h⟩

/-- An operand byte names a mode exactly when it is 00 or 01 (R57). -/
theorem modeOfCode_eq_some (r : Byte) (m : Mode) : modeOfCode r = some m ↔ r = modeCode m := by
  unfold modeOfCode
  split_ifs with hu hp
  · subst hu; cases m <;> decide
  · subst hp; cases m <;> decide
  · cases m <;> simp [hu, hp]

theorem modeOfCode_eq_none (r : Byte) (h0 : r ≠ 0x00) (h1 : r ≠ 0x01) : modeOfCode r = none := by
  cases hm : modeOfCode r with
  | none => rfl
  | some m =>
    have hr := (modeOfCode_eq_some r m).1 hm
    cases m with
    | uart => exact absurd hr h0
    | pwm => exact absurd hr h1

theorem decodeOp_badReset (m : Mode) (r : Byte) (h0 : r ≠ 0x00) (h1 : r ≠ 0x01) :
    decodeOp m [0x1F, r] = .error (.badResetMode r) := by
  rw [decodeOp_of_length m _ _ rfl]
  simp [decodeArgs, modeOfCode_eq_none r h0 h1]

/-- The encoding of an operation begins with an opcode byte of R57 and has the length R57 gives it. -/
theorem opLength_of_encode (i : Instr) (h : (encode i).1 = .op) :
    ∃ op args, (encode i).2 = op :: args ∧ opLength op = some (args.length + 1) := by
  cases i with
  | rxMeas | txSetwp | txSleep | txWake => cases h
  | _ => exact ⟨_, _, rfl, rfl⟩

/-- An operation that lacks some of its last bytes is cut short (R58). -/
theorem decodeOp_of_truncated (m : Mode) (i : Instr) (bytes : List Byte) (h : (encode i).1 = .op)
    (hpre : bytes <+: (encode i).2) (hne : bytes ≠ (encode i).2) : decodeOp m bytes = .error .cutShort := by
  obtain ⟨op, args, henc, hlen⟩ := opLength_of_encode i h
  have hlt : bytes.length < (encode i).2.length :=
    lt_of_le_of_ne hpre.length_le fun e => hne (hpre.eq_of_length e)
  cases bytes with
  | nil => rfl
  | cons b bs =>
    rw [henc] at hpre hlt
    obtain ⟨rfl, -⟩ := List.cons_prefix_cons.1 hpre
    exact decodeOp_of_short m b bs _ hlen (by simpa using hlt)

/-- MODE selects between the two rows of INIT alone (R57). -/
theorem selectedIn_of_not_init (m : Mode) (i : Instr) (h : isInit i = false) : i.selectedIn m = true := by
  cases i with
  | init | initPwm => cases h
  | _ => cases m <;> rfl

/-- What operand bytes of R57's length decode to is selected by the mode and encodes to the operation read. -/
theorem encode_of_decodeArgs (m : Mode) (op : Byte) (args : List Byte) (i : Instr)
    (hlen : opLength op = some (args.length + 1)) (h : decodeArgs m op args = .ok i) :
    i.wf = true ∧ i.selectedIn m = true ∧ encode i = (.op, op :: args) := by
  have nil_of_one (h1 : opLength op = some 1) : args = [] :=
    List.length_eq_zero_iff.1 (Nat.succ_injective (Option.some.inj (hlen.symm.trans h1)))
  have read_back (e : encode i = (.op, op :: args)) (hw : i.wf = true) (hi : isInit i = false) :
      i.wf = true ∧ i.selectedIn m = true ∧ encode i = (.op, op :: args) :=
    ⟨hw, selectedIn_of_not_init m i hi, e⟩
  unfold decodeArgs at h
  split_ifs at h with hop hop hop hop hop hop hop hop hop
  · -- INIT
    subst hop
    cases nil_of_one rfl
    cases m <;> cases h <;> exact ⟨rfl, rfl, rfl⟩
  · -- SETWP
    subst hop
    split at h
    · cases h; exact read_back rfl rfl rfl
    · cases h
  -- SLEEP, WAKE, GETPM25, GETPM10
  iterate 4
    · subst hop; cases nil_of_one rfl; cases h; exact read_back rfl rfl rfl
  · -- RXDONE
    subst hop
    split at h
    · rename_i b hb
      cases h
      exact read_back (by rw [(toBytes10_eq_some _ _).1 hb, encode]) rfl rfl
    · cases h
  · -- EDGE
    subst hop
    split at h
    · cases h; exact read_back (by simp [encode]) rfl rfl
    · cases h
  · -- RESET
    subst hop
    split at h
    · split at h
      · rename_i hr
        cases h; cases (modeOfCode_eq_some _ _).1 hr; exact read_back rfl rfl rfl
      · rename_i hr
        cases h; cases (modeOfCode_eq_some _ _).1 hr; exact read_back rfl rfl rfl
      · cases h
    · cases h

theorem encode_of_decodeOp (m : Mode) (bytes : List Byte) (i : Instr) (h : decodeOp m bytes = .ok i) :
    i.wf = true ∧ i.selectedIn m = true ∧ encode i = (.op, bytes) := by
  obtain ⟨op, args, rfl, hlen, hargs⟩ := decodeOp_eq_ok m bytes i h
  exact encode_of_decodeArgs m op args i hlen hargs

/-- Every operation is read back from its bytes (R57). -/
theorem decodeOp_encode (m : Mode) (i : Instr) (hop : (encode i).1 = .op) (hs : i.selectedIn m = true) :
    decodeOp m (encode i).2 = .ok i := by
  cases i with
  | rxMeas | txSetwp | txSleep | txWake => cases hop
  | init =>
    cases m with
    | uart => rfl
    | pwm => cases hs
  | initPwm =>
    cases m with
    | uart => cases hs
    | pwm => rfl
  | edge c10 c25 =>
    rw [encode, decodeOp_of_length m _ _ rfl]
    simp [decodeArgs]
  | _ => rfl

/-! ### The inbound frames (R49, R54) -/

/-- The measurement frame with the raw fields that ten bytes hold. -/
def frameOfFields (b : Bytes10) : Bytes10 :=
  measurementFrame (le16 b.b2 b.b3) (le16 b.b4 b.b5) (le16 b.b6 b.b7)

theorem decodeWireIn_of_measurement (b : Bytes10) (h : b = frameOfFields b) :
    decodeWireIn (bytes10List b) = .ok (.rxMeas (le16 b.b2 b.b3) (le16 b.b4 b.b5) (le16 b.b6 b.b7)) := by
  simp only [decodeWireIn, toBytes10_bytes10List]
  exact if_pos h

theorem decodeWireIn_of_other (b : Bytes10) (h : b ≠ frameOfFields b) :
    decodeWireIn (bytes10List b) = .ok (.rxdone b) := by
  simp only [decodeWireIn, toBytes10_bytes10List]
  exact if_neg h

/-- Only ten bytes decode as a delivery (R56). -/
theorem decodeWireIn_eq_ok (bytes : List Byte) (i : Instr) (h : decodeWireIn bytes = .ok i) :
    ∃ b, bytes = bytes10List b := by
  unfold decodeWireIn at h
  split at h
  · cases h
  · rename_i b hb
    exact ⟨b, (toBytes10_eq_some _ _).1 hb⟩

theorem frameOfFields_measurementFrame (raw25 raw10 devId : Word) :
    frameOfFields (measurementFrame raw25 raw10 devId) = measurementFrame raw25 raw10 devId := by
  simp [frameOfFields, measurementFrame]

/-- Whatever Decode accepts is the measurement frame of its own fields: R61's constraints fix every other byte. -/
theorem eq_frameOfFields_of_decodeFrame (b : Bytes10) (v : Word × Word) (h : decodeFrame b = some v) :
    b = frameOfFields b := by
  obtain ⟨b0, b1, b2, b3, b4, b5, b6, b7, b8, b9⟩ := b
  simp only [decodeFrame] at h
  split_ifs at h with h0 h1 h9 h8
  simp only [ne_eq, not_not] at h0 h1 h9 h8
  change checksum [b2, b3, b4, b5, b6, b7] 0 5 = b8 at h8
  subst h0 h1 h9 h8
  simp only [frameOfFields, measurementFrame, lo_le16, hi_le16]

theorem decodeWireIn_measurementFrame (raw25 raw10 devId : Word) :
    decodeWireIn (bytes10List (measurementFrame raw25 raw10 devId)) = .ok (.rxMeas raw25 raw10 devId) := by
  rw [decodeWireIn_of_measurement _ (frameOfFields_measurementFrame raw25 raw10 devId).symm]
  simp [measurementFrame]

/-- An inbound delivery is the encoding of its measurement frame, or RXDONE of bytes that Decode does not accept. -/
theorem encode_of_decodeWireIn (bytes : List Byte) (i : Instr) (h : decodeWireIn bytes = .ok i) :
    i.wf = true ∧ isInit i = false
    ∧ (encode i = (.wireIn, bytes) ∨ ∃ b, i = .rxdone b ∧ bytes10List b = bytes ∧ decodeFrame b = none) := by
  obtain ⟨b, rfl⟩ := decodeWireIn_eq_ok bytes i h
  by_cases hb : b = frameOfFields b
  · cases (decodeWireIn_of_measurement b hb).symm.trans h
    refine ⟨rfl, rfl, .inl ?_⟩
    rw [encode, ← frameOfFields, ← hb]
  · cases (decodeWireIn_of_other b hb).symm.trans h
    refine ⟨rfl, rfl, .inr ⟨b, rfl, rfl, ?_⟩⟩
    exact Option.eq_none_iff_forall_ne_some.2 fun v hv => hb (eq_frameOfFields_of_decodeFrame b v hv)

/-! ### The outbound frames (R50 to R52) -/

/-- The frame of a period that needs no clamping is R50's, with the checksum R50 derives. -/
theorem encodeSetWorkingPeriod_of_le (q : Byte) (h : q.toNat ≤ 30) : encodeSetWorkingPeriod q = setwpFrame q := by
  have hsum : checksum ([hdr, cmdOut, 0x08, 0x01, q] ++ List.replicate 10 0x00 ++ [0xFF, 0xFF]) 2 16 = 0x07 + q := by
    simp [checksum, BitVec.ofNat_add]
    bv_omega
  rw [encodeSetWorkingPeriod, clampPeriod_of_le q h, commandFrame, hsum]
  rfl

/-- An outbound frame is told by its kind byte, and a set-working-period frame gives its period back. -/
theorem decodeWireOut_setwp (q : Byte) (h : q.toNat ≤ 30) :
    decodeWireOut (encodeSetWorkingPeriod q) = .ok (.txSetwp q) := by
  have hq : (encodeSetWorkingPeriod q).getD 4 0 = q := clampPeriod_of_le q h
  have hwake : encodeSetWorkingPeriod q ≠ encodeWakeByte := fun e => by cases congrArg List.length e
  have hsleep : encodeSetWorkingPeriod q ≠ encodeSleepCommand := fun e => by
    cases congrArg (fun bytes => bytes.getD 2 0) e
  have hle : q ≤ wpMax := h
  simp only [decodeWireOut, hq, if_neg hwake, if_neg hsleep, hle, and_self, if_true]

theorem encode_of_decodeWireOut (bytes : List Byte) (i : Instr) (h : decodeWireOut bytes = .ok i) :
    i.wf = true ∧ isInit i = false ∧ encode i = (.wireOut, bytes) := by
  unfold decodeWireOut at h
  dsimp only at h
  split_ifs at h with hwake hsleep hsetwp
  · cases h; exact ⟨rfl, rfl, by rw [hwake, encode]⟩
  · cases h; exact ⟨rfl, rfl, by rw [hsleep, encode]⟩
  · obtain ⟨hle, hbytes⟩ := hsetwp
    cases h
    exact ⟨decide_eq_true hle, rfl, by rw [encode, ← hbytes]⟩

/-! ### The obligations on the encoder and the decoder -/

/-- Settles O49: level by level, the decoder reads back what the encoder writes. -/
theorem decodeOfEncode : Obligations.DecodeOfEncode := by
  intro m i hw hs
  cases i with
  | rxMeas raw25 raw10 devId => exact decodeWireIn_measurementFrame raw25 raw10 devId
  | txSetwp q => exact decodeWireOut_setwp q (of_decide_eq_true hw)
  | txSleep | txWake => rfl
  | _ => exact decodeOp_encode m _ rfl hs

/-- Settles O50: level by level, the bytes that the decoder accepts are the ones the encoder writes. -/
theorem encodeOfDecode : Obligations.EncodeOfDecode := by
  intro m level bytes i h
  cases level with
  | op =>
    obtain ⟨hw, hs, he⟩ := encode_of_decodeOp m bytes i h
    exact ⟨hw, hs, .inl he⟩
  | wireIn =>
    obtain ⟨hw, hi, he⟩ := encode_of_decodeWireIn bytes i h
    exact ⟨hw, selectedIn_of_not_init m i hi, he.imp_right fun hb => ⟨rfl, hb⟩⟩
  | wireOut =>
    obtain ⟨hw, hi, he⟩ := encode_of_decodeWireOut bytes i h
    exact ⟨hw, selectedIn_of_not_init m i hi, .inl he⟩

/-- In an unmarked state an operation that does not decode leaves the mark UnknownOp and nothing else (R58, R87). -/
theorem step_of_unknownOp (s : State) (x : Input) (rest : List Input) (e : Reject) (hu : s.Unmarked)
    (hin : s.input = x :: rest) (hl : x.level = .op) (hd : decodeOp s.mode x.bytes = .error e) :
    step s = .next { s with input := rest, txStatus := x.status, refused := some .unknownOp } := by
  rw [step_of_rejected s x rest e hin (by rw [hl]; exact hd), hl]
  exact ifLive_of_unmarked (s.taking x rest) _ hu

/-- Settles O51: each of the three kinds of bytes is an error of the decoder, which the step answers with the mark. -/
theorem unknownOperationsAreRefused : Obligations.UnknownOperationsAreRefused := by
  intro s x rest hu hin hl h
  have refuse (e : Reject) := step_of_unknownOp s x rest e hu hin hl
  obtain ⟨op, args, hx, hop⟩ | ⟨i, hi, hpre, hne⟩ | ⟨r, hx, h0, h1⟩ := h
  · exact refuse _ (hx ▸ decodeOp_of_unassigned s.mode op args (opLength_eq_none op hop))
  · exact refuse _ (decodeOp_of_truncated s.mode i x.bytes hi hpre hne)
  · exact refuse _ (hx ▸ decodeOp_badReset s.mode r h0 h1)

/-- Settles O48: each word is run through the decoder. -/
theorem sampleWordsDecode : Obligations.SampleWordsDecode := by
  unfold Obligations.SampleWordsDecode
  decide

/-! ### Table words and program lines (R59) -/

theorem decodeTableWord_eq_some (nbits w : Nat) (i : Instr) (h : decodeTableWord nbits w = some i) :
    decode .uart (tableBytes nbits w).1 (tableBytes nbits w).2 = .ok i := by
  unfold decodeTableWord at h
  split at h
  · rename_i j hj
    cases h
    exact hj
  · cases h

/-- Settles O53: the placed word is the first input, and the step decodes it in the mode the table is read in. -/
theorem tableWordRunsNext : Obligations.TableWordRunsNext := by
  intro s nbits w i hm h
  have hd := decodeTableWord_eq_some nbits w i h
  rw [← hm] at hd
  let row := tableBytes nbits w
  exact step_of_decoded (s.withFetchWord nbits w) ⟨row.1, row.2, .sent⟩ s.input i rfl hd

/-- A line's steps are instructions of the table, INIT by the row of MODE = UART (R59). -/
theorem wf_of_mem_programSteps (item : ProgramItem) :
    ∀ row ∈ programSteps item, row.1.wf = true
      ∧ (isInit row.1 = false ∨ row.1 = .init ∧ ∃ st, item = .init st) := by
  cases item with
  | reset m => cases m <;> simp [programSteps, Instr.wf, isInit]
  | _ => simp [programSteps, Instr.wf, isInit]

/-- A line spells its steps, but for INIT in MODE = PWM, whose word is the other row there (R59; log 10). -/
theorem lineSpells_programSteps (m : Mode) (item : ProgramItem) (h : m = .uart ∨ ∀ st, item ≠ .init st) :
    LineSpells m item (programSteps item) := by
  unfold LineSpells programInputs
  rw [List.map_map]
  refine List.map_congr_left fun row hrow => ?_
  obtain ⟨hw, hsel⟩ := wf_of_mem_programSteps item row hrow
  have hs : row.1.selectedIn m = true := by
    obtain hi | ⟨hi, st, rfl⟩ := hsel
    · exact selectedIn_of_not_init m row.1 hi
    · obtain rfl | hne := h
      · rw [hi]; rfl
      · exact absurd rfl (hne st)
  exact Prod.ext (decodeOfEncode m row.1 hw hs) rfl

/-- The measurement frame written out, its checksum the sum of its payload bytes (R49, R59). -/
theorem measurementFrame_eq (a c d : Word) :
    measurementFrame a c d = ⟨0xAA, 0xC0, lo a, hi a, lo c, hi c, lo d, hi d,
      lo a + hi a + lo c + hi c + lo d + hi d, 0xAB⟩ := by
  have hsum : checksum [lo a, hi a, lo c, hi c, lo d, hi d] 0 5 = lo a + hi a + lo c + hi c + lo d + hi d := by
    simp [checksum, BitVec.ofNat_add, add_assoc]
  rw [measurementFrame, hsum]
  rfl

/-- Settles O54: every line but INIT in MODE = PWM spells its own steps, and that one spells the row INIT_PWM. -/
theorem programLinesDecodeToTheirSteps : Obligations.ProgramLinesDecodeToTheirSteps := by
  intro st p b a c d
  refine ⟨fun m => ?_, lineSpells_programSteps .uart (.init st) (.inl rfl), rfl⟩
  have spells (item : ProgramItem) (h : ∀ st, item ≠ .init st) := lineSpells_programSteps m item (.inr h)
  have hmeas := spells (.rxmeas a c d) nofun
  rw [programSteps, measurementFrame_eq] at hmeas
  exact ⟨spells (.reset .uart) nofun, spells (.reset .pwm) nofun, spells (.setwp p st) nofun,
    spells (.sleep st) nofun, spells (.wake st) nofun, spells .getPm25 nofun, spells .getPm10 nofun,
    spells (.rxdone b) nofun, spells (.edge a c) nofun, hmeas, spells (.pwmcycle a c) nofun⟩

/-! ### What the rows of the table do -/

/-- Settles O6: R49's frame meets R61's constraints, and the divisor of R4 is 10. -/
theorem measurementFrameDecodesToTenths : Obligations.MeasurementFrameDecodesToTenths :=
  decodeFrame_measurementFrame

/-- R70 for a frame that decodes: its values stored, the buffer replaced, one request posted. -/
theorem receive_of_decoded (b : Bytes10) (v25 v10 : Word) (s : State) (h : decodeFrame b = some (v25, v10)) :
    receive b s = { s with
      rxArmed := true, rxBuf := b, H := s.H ++ [.arm 10], pm25 := v25, pm10 := v10, storeValid := true } := by
  simp only [receive, h]
  rfl

/-- Settles O19: the delivery of the row's frame, which decodes to the tenths, where a request is pending. -/
theorem measurementFrameDeliveredIsStored : Obligations.MeasurementFrameDeliveredIsStored := by
  intro raw25 raw10 devId s hu hm ha
  rw [exec_rxMeas_of_armed raw25 raw10 devId s hu hm ha,
    receive_of_decoded _ _ _ s (measurementFrameDecodesToTenths raw25 raw10 devId), ← ha]

theorem sendResult_eq_okIfSent (st : TxStatus) : sendResult st = okIfSent st := by cases st <;> rfl

/-- R67: one request is pending afterwards, posted exactly if none was. -/
theorem armRx_eq (s : State) :
    armRx s = { s with rxArmed := true, H := s.H ++ (if s.rxArmed then [] else [.arm 10]) } := by
  cases ha : s.rxArmed with
  | false => simp [armRx, ha, emit, rxFrameLen]
  | true => rw [armRx, if_pos ha, if_pos rfl, List.append_nil, ← ha]

/-- R69, whole. -/
theorem initUart_eq (s : State) :
    initUart s = { s with
      init := true
      rxArmed := true
      H := s.H ++ [.tx (setwpFrame 0) s.txStatus] ++ (if s.rxArmed then [] else [.arm 10])
      hostRes := s.hostRes ++ [okIfSent s.txStatus] } := by
  simp only [initUart, armRx_eq, encodeSetWorkingPeriod_of_le 0 (by decide), txSend_fst, sendResult_eq_okIfSent]
  rfl

theorem initialise_of_uart (s : State) (hm : s.mode = .uart) : initialise s = initUart s := by
  simp only [initialise, hm]

/-- Settles O13: the row runs Initialize, whose rule MODE = UART selects. -/
theorem sharedInitWordInUartIsInit : Obligations.SharedInitWordInUartIsInit := by
  intro s hu hm
  rw [exec_initPwm_of_unmarked s hu, initialise_of_uart s hm, initUart_eq]

/-- Settles O22: each row is one send of its frame, and a well-formed period is not clamped. -/
theorem outboundFramesAreRecorded : Obligations.OutboundFramesAreRecorded := by
  intro s hu hm hi
  refine ⟨fun q hq => ?_, ?_, ?_⟩
  · rw [exec_txSetwp_of_unmarked q s hu, transmit_of_ready _ s hm hi,
      encodeSetWorkingPeriod_of_le q (of_decide_eq_true hq), emit]
  · rw [exec_txSleep_of_unmarked s hu, transmit_of_ready _ s hm hi]
    rfl
  · rw [exec_txWake_of_unmarked s hu, transmit_of_ready _ s hm hi]
    rfl

end Sys2Proof.Machine
end

section
/-! PROOF. The frame-codec statements (40_frame_codec.md): the checksum, the frames that Decode accepts with what they
answer, and the frames that the block sends. -/

namespace Sys2Proof.Machine

/-! ### The checksum (R60) -/

/-- The `n` bytes from index `i` on, read one by one. -/
theorem take_drop_eq_map_getD (b : List Byte) (i n : Nat) (h : i + n ≤ b.length) :
    (b.drop i).take n = (List.range n).map fun k => b.getD (i + k) 0 := by
  apply List.ext_getElem
  · simp only [List.length_take, List.length_drop, List.length_map, List.length_range]
    omega
  · intro k hk hk'
    have hlt : i + k < b.length := by simp at hk'; omega
    simp [List.getElem?_eq_getElem hlt]

/-- Settles O1: the slice that the definition cuts out is bytes `lo` to `hi`, index by index. -/
theorem checksumIsByteSumMod256 : Obligations.ChecksumIsByteSumMod256 := by
  intro b lo hi hle hlt
  rw [checksum_toNat, take_drop_eq_map_getD b lo (hi + 1 - lo) (by omega), List.map_map]
  rfl

/-! ### The frames that Decode accepts (R49, R61, R62) -/

/-- Decode accepts on R61's four checks, and answers the two scaled fields. -/
theorem decodeFrame_eq_some (b : Bytes10) (v25 v10 : Word) : decodeFrame b = some (v25, v10) ↔
    b.b0 = hdr ∧ b.b1 = cmdData ∧ b.b9 = tail ∧ checksum (bytes10List b) 2 7 = b.b8
    ∧ scaleRaw (le16 b.b2 b.b3) = v25 ∧ scaleRaw (le16 b.b4 b.b5) = v10 := by
  unfold decodeFrame
  split_ifs <;> simp_all

/-- The checksum of a delivery covers its six payload bytes (R49). -/
theorem checksum_bytes10List_eq (b : Bytes10) (c : Byte) : checksum (bytes10List b) 2 7 = c ↔
    (b.b2.toNat + b.b3.toNat + b.b4.toNat + b.b5.toNat + b.b6.toNat + b.b7.toNat) % 256 = c.toNat := by
  rw [← BitVec.toNat_inj, checksum_toNat]
  simp [bytes10List, add_assoc]

/-- A stored value is the truncated tenth of its little-endian field (R13, R61). -/
theorem scaleRaw_le16_eq (l h : Byte) (v : Word) :
    scaleRaw (le16 l h) = v ↔ v.toNat = (l.toNat + 256 * h.toNat) / 10 := by
  rw [eq_comm, ← BitVec.toNat_inj, scaleRaw_toNat, le16_toNat]

/-- Settles O2: each check and each answered field of R61, as a number. -/
theorem decodeAcceptsExactlyValidFrames : Obligations.DecodeAcceptsExactlyValidFrames := by
  intro b v25 v10
  rw [decodeFrame_eq_some, checksum_bytes10List_eq, scaleRaw_le16_eq, scaleRaw_le16_eq]
  rfl

/-- Settles O3: the fourth check is the round trip, and a tenth of a 16-bit field is at most 6553. -/
theorem acceptedFrameRechecks : Obligations.AcceptedFrameRechecks := by
  intro b v25 v10 h
  obtain ⟨-, -, -, hsum, -, -⟩ := (decodeFrame_eq_some b v25 v10).1 h
  exact ⟨hsum, decodeFrame_le b v25 v10 h⟩

/-! ### The frames that the block sends (R50 to R52) -/

/-- Byte 17 of a command frame is the checksum of the finished frame's bytes 2 to 16, which stand before it. -/
theorem commandFrame_checksum (kind sub payload : Byte) : (commandFrame kind sub payload)[17]?
    = some (checksum (commandFrame kind sub payload) 2 16) := rfl

theorem clampPeriod_eq_ofNat (p : Byte) : clampPeriod p = BitVec.ofNat 8 (min p.toNat 30) := by
  rw [← clampPeriod_toNat, BitVec.ofNat_toNat, BitVec.setWidth_eq]

/-- The frame of any period is R50's with the clamped period byte. -/
theorem encodeSetWorkingPeriod_eq (p : Byte) : encodeSetWorkingPeriod p = setwpFrame (clampPeriod p) := by
  have hle : (clampPeriod p).toNat ≤ 30 := by rw [clampPeriod_toNat]; exact Nat.min_le_right _ _
  rw [← encodeSetWorkingPeriod_clampPeriod, encodeSetWorkingPeriod_of_le _ hle]

/-- Settles O4: the clamp puts every operand in the range of R50's frame, and every command frame is checksummed. -/
theorem setwpFrameCarriesClampedPeriod : Obligations.SetwpFrameCarriesClampedPeriod := by
  intro p
  rw [← clampPeriod_eq_ofNat]
  exact ⟨encodeSetWorkingPeriod_eq p, commandFrame_checksum 0x08 0x01 (clampPeriod p)⟩

/-- The sleep constant is the command frame of its kind, subcommand and payload bytes (R51). -/
theorem encodeSleepCommand_eq_commandFrame : encodeSleepCommand = commandFrame 0x06 0x01 0x00 := by decide

/-- Settles O5: the constants are the spec's bytes, and the sleep frame is checksummed as every command frame is. -/
theorem constantFramesAreTheSpecs : Obligations.ConstantFramesAreTheSpecs := by
  refine ⟨rfl, rfl, ?_, rfl⟩
  have hsum := commandFrame_checksum 0x06 0x01 0x00
  rw [← encodeSleepCommand_eq_commandFrame] at hsum
  exact (Option.some.inj hsum).symm

end Sys2Proof.Machine
end

section
/-! PROOF. The serial-session statements (41_serial_session.md): arming and sending, the guard of the commands, what
INIT, SETWP, SLEEP, WAKE and RXDONE leave, the pending receive, and what the draw cannot change. -/

namespace Sys2Proof.Machine

/-! ### The pending receive (R33) -/

/-- Settles O40: waiting changes nothing, every instruction keeps R33's property, an unknown operation only marks, and
taking the input touches none of the three fields. -/
theorem receiveStaysArmedOnceInitialised : Obligations.ReceiveStaysArmedOnceInitialised := by
  refine ⟨nofun, fun s t hs h => ?_⟩
  obtain ⟨-, -, rfl⟩ | ⟨x, rest, -, ⟨i, -, hi⟩ | ⟨e, -, -, -, rfl⟩⟩ := step_eq_next s t h
  · exact hs
  · exact hi.keeps_armedOnceInitialised hs
  · exact hs

/-! ### The primitives (R67, R68) -/

/-- Settles O8: R67's effect on the request and the history, where none is pending and where one is. -/
theorem armRxPostsOneRequest : Obligations.ArmRxPostsOneRequest := by
  intro s
  refine ⟨fun hidle => ?_, fun hpending => if_pos hpending⟩
  rw [armRx_eq, hidle]
  rfl

/-- Settles O9: the status is the presented draw, and the one emission carries it. -/
theorem txSendRecordsBytesAndDraw : Obligations.TxSendRecordsBytesAndDraw := by
  intro bytes s
  rw [txSend, emit]

/-! ### The guard of SETWP, SLEEP and WAKE (R66) -/

section Guard

variable {i : Instr} {s : State}

/-- A live command is the guard before an operation that marks nothing. -/
theorem exec_command_eq_commandGuard (hi : isCommand i = true) (hu : s.Unmarked) :
    ∃ op : State → State, exec i s = commandGuard s (fun s => .next (op s)) ∧ (op s).Unmarked := by
  cases i with
  | setwp p => exact ⟨_, exec_setwp_of_unmarked p s hu, hu⟩
  | sleep => exact ⟨_, exec_sleep_of_unmarked s hu, hu⟩
  | wake => exact ⟨_, exec_wake_of_unmarked s hu, by simpa [State.Unmarked] using hu⟩
  | _ => cases hi

theorem exec_command_of_wrongMode (hi : isCommand i = true) (hu : s.Unmarked) (hm : s.mode ≠ .uart) :
    exec i s = .next { s with refused := some .wrongMode } := by
  obtain ⟨op, hexec, -⟩ := exec_command_eq_commandGuard hi hu
  exact hexec.trans (if_pos hm)

theorem exec_command_of_not_init (hi : isCommand i = true) (hu : s.Unmarked) (hm : s.mode = .uart)
    (hn : s.init = false) : exec i s = .next { s with refused := some .notInitialised } := by
  obtain ⟨op, hexec, -⟩ := exec_command_eq_commandGuard hi hu
  exact hexec.trans (commandGuard_of_not_init s _ hm hn)

theorem exec_command_of_ready (hi : isCommand i = true) (hu : s.Unmarked) (hm : s.mode = .uart)
    (hn : s.init = true) : ∃ t, exec i s = .next t ∧ t.Unmarked := by
  obtain ⟨op, hexec, hop⟩ := exec_command_eq_commandGuard hi hu
  exact ⟨op s, hexec.trans (commandGuard_of_ready s _ hm hn), hop⟩

/-- Both rules of Initialize leave the marks alone (R69, R79). -/
theorem initialise_unmarked (hu : s.Unmarked) : (initialise s).Unmarked := by
  unfold initialise
  cases s.mode with
  | uart => simpa [State.Unmarked] using hu
  | pwm => exact hu

/-- INIT runs no guard (R66): it completes in either mode, before and after an earlier INIT. -/
theorem exec_init_completes (hi : isInit i = true) (hu : s.Unmarked) : ∃ t, exec i s = .next t ∧ t.Unmarked := by
  refine ⟨initialise s, ?_, initialise_unmarked hu⟩
  cases i with
  | init => exact exec_init_of_unmarked s hu
  | initPwm => exact exec_initPwm_of_unmarked s hu
  | _ => cases hi

end Guard

/-- Settles O17: the guard's two refusals and its passage, and INIT without it. -/
theorem commandGuardRefuses : Obligations.CommandGuardRefuses :=
  ⟨fun _ _ hi hu =>
    ⟨exec_command_of_wrongMode hi hu, exec_command_of_not_init hi hu, exec_command_of_ready hi hu⟩,
  fun _ _ => exec_init_completes⟩

/-! ### The operations that send (R69, R71 to R73) -/

/-- Settles O11: the row runs Initialize, whose rule MODE = UART selects. -/
theorem initUartSendsPeriodZeroAndArms : Obligations.InitUartSendsPeriodZeroAndArms := by
  intro s hu hm
  rw [exec_init_of_unmarked s hu, initialise_of_uart s hm, initUart_eq]

/-- The tail that the sends share: the bytes with the draw, then the result (R71, R72). -/
theorem sendAndReply_eq (bytes : List Byte) (s : State) :
    sendAndReply bytes s = { s with
      H := s.H ++ [.tx bytes s.txStatus]
      hostRes := s.hostRes ++ [okIfSent s.txStatus] } := by
  rw [← sendResult_eq_okIfSent]
  rfl

/-- Settles O14: past the guard the clamped period's frame is sent; before it, the two refusals of every command. -/
theorem setwpSendsClampedPeriod : Obligations.SetwpSendsClampedPeriod := by
  intro p s hu
  refine ⟨fun hm hi => ?_, exec_command_of_wrongMode rfl hu, exec_command_of_not_init rfl hu⟩
  rw [exec_setwp_of_unmarked p s hu, commandGuard_of_ready s _ hm hi, sendAndReply_eq,
    encodeSetWorkingPeriod_eq, clampPeriod_eq_ofNat]

/-- Settles O15: past the guard the sleep frame is sent; before it, the two refusals of every command. -/
theorem sleepSendsSleepFrame : Obligations.SleepSendsSleepFrame := by
  intro s hu
  refine ⟨fun hm hi => ?_, exec_command_of_wrongMode rfl hu, exec_command_of_not_init rfl hu⟩
  rw [exec_sleep_of_unmarked s hu, commandGuard_of_ready s _ hm hi, sendAndReply_eq]
  rfl

/-- R73 after SENT: the probe, one request if none was pending, and the result OK. -/
theorem wakeAndReply_of_sent (s : State) (h : s.txStatus = .sent) :
    wakeAndReply s = { s with
      rxArmed := true
      H := s.H ++ [.tx encodeWakeByte s.txStatus] ++ (if s.rxArmed then [] else [.arm 10])
      hostRes := s.hostRes ++ [okIfSent s.txStatus] } := by
  simp only [wakeAndReply, txSend_fst, txSend_snd, if_pos h, armRx_eq, sendResult_eq_okIfSent]
  rfl

/-- R73 after a failed send: the probe and the result alone, as for SETWP and SLEEP. -/
theorem wakeAndReply_of_not_sent (s : State) (h : s.txStatus ≠ .sent) :
    wakeAndReply s = sendAndReply encodeWakeByte s := by
  simp only [wakeAndReply, sendAndReply, txSend_fst, h, if_false]

/-- Settles O16: past the guard WAKE re-arms after SENT and not otherwise; before it, the two refusals of every
command. -/
theorem wakeSendsProbeAndRearmsAfterSent : Obligations.WakeSendsProbeAndRearmsAfterSent := by
  intro s hu
  refine ⟨fun hm hi => ?_, exec_command_of_wrongMode rfl hu, exec_command_of_not_init rfl hu⟩
  rw [exec_wake_of_unmarked s hu, commandGuard_of_ready s _ hm hi]
  by_cases hs : s.txStatus = .sent
  · rw [wakeAndReply_of_sent s hs]
    cases s.rxArmed <;> simp [hs, encodeWakeByte]
  · rw [wakeAndReply_of_not_sent s hs, sendAndReply_eq]
    simp [hs, encodeWakeByte]

/-! ### Deliveries (R70) -/

/-- R70 for a frame that does not decode: the buffer replaced and one request posted. -/
theorem receive_of_undecoded (b : Bytes10) (s : State) (h : decodeFrame b = none) :
    receive b s = { s with rxArmed := true, rxBuf := b, H := s.H ++ [.arm 10] } := by
  simp only [receive, h]
  rfl

/-- Settles O18: an armed delivery by what its frame decodes to; elsewhere the refusal is no next state. -/
theorem rxdoneStoresValidFramesAndRearms : Obligations.RxdoneStoresValidFramesAndRearms := by
  intro b s hu
  rw [exec_rxdone_of_unmarked b s hu]
  refine ⟨fun hm ha => ?_, fun hn t => ?_⟩
  · rw [deliver_of_armed b s hm ha, ← ha]
    refine ⟨fun v25 v10 hd => ?_, fun hd => ?_⟩
    · rw [receive_of_decoded b v25 v10 s hd, ha]
    · rw [receive_of_undecoded b s hd, ha]
  · rw [deliver_of_not_enabled b s hn]
    nofun

/-! ### Outbound frames where no rule sends (log 12) -/

theorem transmit_of_not_enabled (bytes : List Byte) (s : State) (h : ¬ (s.mode = .uart ∧ s.init = true)) :
    transmit bytes s = .refused .txNotEnabled :=
  if_neg (by simpa [txEnabled] using h)

/-- Settles O23: each row runs `transmit`, which refuses outside a session. -/
theorem outboundFramesNeedSession : Obligations.OutboundFramesNeedSession := by
  intro s hu hn
  refine ⟨fun q => ?_, ?_, ?_⟩
  · rw [exec_txSetwp_of_unmarked q s hu, transmit_of_not_enabled _ s hn]
  · rw [exec_txSleep_of_unmarked s hu, transmit_of_not_enabled _ s hn]
  · rw [exec_txWake_of_unmarked s hu, transmit_of_not_enabled _ s hn]

/-! ### Another draw (R68) -/

/-- The same state with another answer presented on TX_STATUS. -/
def State.withDraw (s : State) (draw : TxStatus) : State := { s with txStatus := draw }

/-- A completed operation completes with any other draw, and leaves the same state but for it. -/
def IgnoresDraw (op : State → Result) : Prop :=
  ∀ (s t : State) (draw : TxStatus), op s = .next t → op (s.withDraw draw) = .next (t.withDraw draw)

theorem IgnoresDraw.ifLive {op : State → Result} (hop : IgnoresDraw op) : IgnoresDraw fun s => ifLive s op := by
  intro s t draw h
  obtain ⟨hu, h⟩ := (ifLive_eq_next s t op).1 h
  exact (ifLive_of_unmarked (s.withDraw draw) op hu).trans (hop s t draw h)

/-- A read that faults or answers does the same with another draw, provided the value read is not the draw. -/
theorem readStore_ignoresDraw (value : State → Word) (hv : ∀ s draw, value (s.withDraw draw) = value s) :
    IgnoresDraw (readStore value) := by
  intro s t draw h
  by_cases hn : s.params.storeReset = .unwritten ∧ s.storeValid = false
  · cases (if_pos hn).symm.trans h
    exact if_pos hn
  · cases (if_neg hn).symm.trans h
    rw [← hv s draw]
    exact if_neg hn

theorem receive_withDraw (b : Bytes10) (s : State) (draw : TxStatus) :
    receive b (s.withDraw draw) = (receive b s).withDraw draw := by
  cases hd : decodeFrame b with
  | none =>
    rw [receive_of_undecoded b _ hd, receive_of_undecoded b _ hd]
    rfl
  | some v =>
    rw [receive_of_decoded b v.1 v.2 _ hd, receive_of_decoded b v.1 v.2 _ hd]
    rfl

theorem deliver_ignoresDraw (b : Bytes10) : IgnoresDraw (deliver b) := by
  intro s t draw h
  obtain ⟨hm, ha, rfl⟩ := deliver_eq_next b s t h
  rw [deliver_of_armed b (s.withDraw draw) hm ha, receive_withDraw]

/-- An edge depends on the sequencer's state, PWM_UNDERFLOW and the captures (R75 to R78). -/
theorem captureEdge_ignoresDraw (c10 c25 : Word) : IgnoresDraw (captureEdge c10 c25) := by
  intro s t draw h
  obtain ⟨hm, hi, ⟨hp, rfl⟩ | ⟨hp, rfl⟩ | ⟨hp, h⟩⟩ := captureEdge_eq_next c10 c25 s t h
  · exact captureEdge_of_awaitRise c10 c25 _ hm hi hp
  · exact captureEdge_of_awaitFall1 c10 c25 _ hm hi hp
  · rw [captureEdge_of_awaitFall2 c10 c25 (s.withDraw draw) hm hi hp]
    have hparams : (s.withDraw draw).params = s.params := rfl
    unfold edgeFall2 at h ⊢
    rw [hparams]
    split at h <;> cases h <;> rfl

theorem execReset_ignoresDraw (m : Mode) : IgnoresDraw fun s => .next (resetTo m s) := by
  intro s t draw h
  cases h
  rfl

/-- Settles O57: reads, deliveries, edges and RESET do not look at the draw and leave it as it is. -/
theorem drawMattersOnlyToSends : Obligations.DrawMattersOnlyToSends := by
  intro i s t draw hsend
  cases i with
  | getPm25 => exact (readStore_ignoresDraw State.pm25 fun _ _ => rfl).ifLive s t draw
  | getPm10 => exact (readStore_ignoresDraw State.pm10 fun _ _ => rfl).ifLive s t draw
  | rxdone b => exact (deliver_ignoresDraw b).ifLive s t draw
  | edge c10 c25 => exact (captureEdge_ignoresDraw c10 c25).ifLive s t draw
  | resetUart => exact execReset_ignoresDraw .uart s t draw
  | resetPwm => exact execReset_ignoresDraw .pwm s t draw
  | rxMeas raw25 raw10 devId => exact (deliver_ignoresDraw _).ifLive s t draw
  | _ => cases hsend

end Sys2Proof.Machine
end

section
/-! PROOF. The sequencer statements (42_pwm_sequencer.md): the offset, INIT in MODE = PWM, what each edge leaves, runs
of edges, and the polarity beside the sequencer state. -/

namespace Sys2Proof.Machine

/-! ### The polarity and the sequencer state (R34) -/

/-- Settles O41: waiting changes nothing, every instruction keeps R34's property, an unknown operation only marks, and
taking the input touches neither field. -/
theorem polarityFollowsSequencer : Obligations.PolarityFollowsSequencer := by
  refine ⟨by decide, fun s t hs h => ?_⟩
  obtain ⟨-, -, rfl⟩ | ⟨x, rest, -, ⟨i, -, hi⟩ | ⟨e, -, -, -, rfl⟩⟩ := step_eq_next s t h
  · exact hs
  · exact hi.keeps_polarityFollowsState hs
  · exact hs

/-! ### The offset (R74) -/

/-- The 16-bit subtraction, as a number (R8, R74). -/
theorem sub_two_toNat (c : Word) : (c - 2).toNat = (c.toNat + 65534) % 65536 := by
  rw [BitVec.toNat_sub, Nat.add_comm]
  rfl

theorem sub_two_of_two_le (c : Word) (h : 2 ≤ c.toNat) : c - 2 = BitVec.ofNat 16 (c.toNat - 2) := by
  bv_omega

/-- Under WRAP the guard makes no difference. -/
theorem offset_wrap (c : Word) : offset .wrap c = some (c - 2) := ite_self _

/-- Under SATURATE the offset is the truncated difference. -/
theorem offset_saturate (c : Word) : offset .saturate c = some (BitVec.ofNat 16 (c.toNat - 2)) := by
  by_cases h : 2 ≤ c.toNat
  · rw [offset_of_two_le _ c h, sub_two_of_two_le c h]
  · have hguard : ¬ pwmOffset ≤ c := by simpa [BitVec.le_def, pwmOffset] using h
    have hzero : c.toNat - 2 = 0 := by omega
    rw [offset, if_neg hguard, hzero]
    rfl

theorem exists_offset_of_ne_fault {u : PwmUnderflow} (hu : u ≠ .fault) (c : Word) : ∃ v, offset u c = some v :=
  Option.ne_none_iff_exists'.1 fun h => hu ((offset_eq_none u c).1 h).1

/-- Settles O7: from 2 on the difference; below 2 the wrapped difference, the truncated one, or none. -/
theorem offsetByUnderflowParameter : Obligations.OffsetByUnderflowParameter := by
  refine fun c => ⟨fun h u => ?_, fun h => ⟨?_, ?_, (offset_eq_none .fault c).2 ⟨rfl, h⟩⟩⟩
  · rw [offset_of_two_le u c h, sub_two_of_two_le c h]
  · rw [offset_wrap]
    exact congrArg some (by bv_omega)
  · have hzero : c.toNat - 2 = 0 := by omega
    rw [offset_saturate, hzero]
    rfl

/-! ### INIT in MODE = PWM (R79) -/

theorem initialise_of_pwm (s : State) (hm : s.mode = .pwm) : initialise s = initPwm s := by
  simp only [initialise, hm]

/-- Settles O12: both rows run Initialize, whose rule MODE = PWM selects. -/
theorem initPwmEnablesEdges : Obligations.InitPwmEnablesEdges := by
  intro s hu hm
  rw [exec_init_of_unmarked s hu, exec_initPwm_of_unmarked s hu, initialise_of_pwm s hm]
  exact ⟨rfl, rfl⟩

/-! ### One edge in each sequencer state (R76 to R78) -/

/-- R76, whole. -/
theorem edgeRise_eq (s : State) : edgeRise s = { s with
    pwmState := .awaitFall1
    capPol := .falling
    H := s.H ++ [.counterReset, .setPolarity .falling] } := by
  simp [edgeRise, emit]

/-- R78 where both captures have an offset. -/
theorem edgeFall2_of_offsets {c10 c25 v10 v25 : Word} {s : State}
    (h10 : offset s.params.pwmUnderflow c10 = some v10) (h25 : offset s.params.pwmUnderflow c25 = some v25) :
    edgeFall2 c10 c25 s = .next { s with
      capPol := .rising
      H := s.H ++ [.setPolarity .rising]
      pm25 := v25
      pm10 := v10
      storeValid := true
      pwmState := .awaitRise } := by
  simp only [edgeFall2, h10, h25]
  rfl

/-- R78 where a capture has none: the fault comes before every write. -/
theorem edgeFall2_of_no_offset {c10 c25 : Word} {s : State}
    (h : offset s.params.pwmUnderflow c10 = none ∨ offset s.params.pwmUnderflow c25 = none) :
    edgeFall2 c10 c25 s = raiseFault .pwmUnderflow s := by
  unfold edgeFall2
  split
  · rename_i h10 h25
    simp [h10, h25] at h
  · rfl

section Edge

variable {s : State} (hu : s.Unmarked) (hm : s.mode = .pwm) (hi : s.init = true)
include hu hm hi

theorem exec_edge_of_awaitRise (c10 c25 : Word) (hp : s.pwmState = .awaitRise) :
    exec (.edge c10 c25) s = .next (edgeRise s) := by
  rw [exec_edge_of_unmarked c10 c25 s hu, captureEdge_of_awaitRise c10 c25 s hm hi hp]

theorem exec_edge_of_awaitFall1 (c10 c25 : Word) (hp : s.pwmState = .awaitFall1) :
    exec (.edge c10 c25) s = .next (edgeFall1 s) := by
  rw [exec_edge_of_unmarked c10 c25 s hu, captureEdge_of_awaitFall1 c10 c25 s hm hi hp]

theorem exec_edge_of_awaitFall2 (c10 c25 : Word) (hp : s.pwmState = .awaitFall2) :
    exec (.edge c10 c25) s = edgeFall2 c10 c25 s := by
  rw [exec_edge_of_unmarked c10 c25 s hu, captureEdge_of_awaitFall2 c10 c25 s hm hi hp]

/-- Where PWM_UNDERFLOW is not FAULT an enabled edge completes in every sequencer state, and marks nothing. -/
theorem exec_edge_completes (c10 c25 : Word) (hf : s.params.pwmUnderflow ≠ .fault) :
    ∃ t, exec (.edge c10 c25) s = .next t ∧ t.Unmarked := by
  cases hp : s.pwmState with
  | awaitRise =>
    exact ⟨_, exec_edge_of_awaitRise hu hm hi c10 c25 hp, by simpa [State.Unmarked] using hu⟩
  | awaitFall1 => exact ⟨_, exec_edge_of_awaitFall1 hu hm hi c10 c25 hp, hu⟩
  | awaitFall2 =>
    obtain ⟨v10, h10⟩ := exists_offset_of_ne_fault hf c10
    obtain ⟨v25, h25⟩ := exists_offset_of_ne_fault hf c25
    exact ⟨_, (exec_edge_of_awaitFall2 hu hm hi c10 c25 hp).trans (edgeFall2_of_offsets h10 h25), hu⟩

end Edge

/-- Settles O24: the enabled first edge is R76's rule. -/
theorem edgeRiseResetsCounterAndTurnsPolarity : Obligations.EdgeRiseResetsCounterAndTurnsPolarity := by
  intro c10 c25 s hu hm hi hp
  rw [exec_edge_of_awaitRise hu hm hi c10 c25 hp, edgeRise_eq]

/-- Settles O25: the enabled second edge is R77's rule. -/
theorem edgeFirstFallOnlyMovesSequencer : Obligations.EdgeFirstFallOnlyMovesSequencer := by
  intro c10 c25 s hu hm hi hp
  rw [exec_edge_of_awaitFall1 hu hm hi c10 c25 hp, edgeFall1]

/-- Settles O26: the enabled third edge is R78's rule, which faults where Offset does. -/
theorem edgeSecondFallStoresOffsetPair : Obligations.EdgeSecondFallStoresOffsetPair := by
  intro c10 c25 s hu hm hi hp
  rw [exec_edge_of_awaitFall2 hu hm hi c10 c25 hp]
  refine ⟨fun v10 v25 => edgeFall2_of_offsets, fun hf hlow => ?_⟩
  have hnone : offset s.params.pwmUnderflow c10 = none ∨ offset s.params.pwmUnderflow c25 = none := by
    simpa only [offset_eq_none, hf, true_and] using hlow
  exact edgeFall2_of_no_offset hnone

/-- Settles O27: the closing edge with the offset that the captures or PWM_UNDERFLOW select. -/
theorem edgeStoresCountMinusTwo : Obligations.EdgeStoresCountMinusTwo := by
  intro c10 c25 s hu hm hi hp
  rw [exec_edge_of_awaitFall2 hu hm hi c10 c25 hp]
  refine ⟨fun h => ?_, fun hsat => ?_⟩
  · obtain ⟨hoff10, hoff25⟩ : offset s.params.pwmUnderflow c10 = some (c10 - 2)
        ∧ offset s.params.pwmUnderflow c25 = some (c25 - 2) := by
      obtain ⟨h10, h25⟩ | hwrap := h
      · exact ⟨offset_of_two_le _ c10 h10, offset_of_two_le _ c25 h25⟩
      · rw [hwrap]
        exact ⟨offset_wrap c10, offset_wrap c25⟩
    exact ⟨_, edgeFall2_of_offsets hoff10 hoff25, hu, sub_two_toNat c10, sub_two_toNat c25⟩
  · have hoff (c : Word) : offset s.params.pwmUnderflow c = some (BitVec.ofNat 16 (c.toNat - 2)) := by
      rw [hsat, offset_saturate]
    have hval (c : Word) : (BitVec.ofNat 16 (c.toNat - 2)).toNat = c.toNat - 2 := by
      rw [BitVec.toNat_ofNat, Nat.mod_eq_of_lt (by omega)]
    exact ⟨_, edgeFall2_of_offsets (hoff c10) (hoff c25), hu, hval c10, hval c25⟩

/-! ### Runs of edges (R80) -/

theorem runInstrs_cons_eq_next {i : Instr} {is : List Instr} {s t : State} :
    runInstrs (i :: is) s = .next t ↔ ∃ u, exec i s = .next u ∧ runInstrs is u = .next t := by
  cases h : exec i s <;> simp [runInstrs, h]

/-- A fault stops a run without RESET, or stands at its end (R87). -/
theorem fault_eq_none_of_runInstrs {is : List Instr} {s t : State} (hr : ∀ i ∈ is, isReset i = false)
    (h : runInstrs is s = .next t) (ht : t.fault = none) : s.fault = none := by
  cases is with
  | nil => cases h; exact ht
  | cons i is =>
    obtain ⟨u, hexec, -⟩ := runInstrs_cons_eq_next.1 h
    refine Option.eq_none_iff_forall_ne_some.2 fun r hf => ?_
    cases (exec_of_fault i s r (hr i List.mem_cons_self) hf).symm.trans hexec

theorem pwmStateCode_lt_three (p : PwmState) : (pwmStateCode p).toNat < 3 := by
  cases p <;> decide

/-- An edge that does not fault moves the sequencer on by one, cyclically. -/
theorem StepsTo.edge_code {c10 c25 : Word} {s t : State} (h : StepsTo (.edge c10 c25) s t) (ht : t.fault = none) :
    (pwmStateCode t.pwmState).toNat = ((pwmStateCode s.pwmState).toNat + 1) % 3 := by
  cases h with
  | edgeRise _ _ _ _ _ _ hp => simp [hp, pwmStateCode]
  | edgeFall1 _ _ _ _ _ _ hp => simp [hp, pwmStateCode]
  | edgeStore _ _ _ _ _ _ _ _ hp => simp [hp, pwmStateCode]
  | edgeFault => cases ht
  | _ => simp_all [isInit, isCommand]

/-- R80's count, from any sequencer state. -/
theorem runInstrs_edges_code {cs : List (Word × Word)} {s t : State}
    (h : runInstrs (cs.map fun c => .edge c.1 c.2) s = .next t) (ht : t.fault = none) :
    (pwmStateCode t.pwmState).toNat = ((pwmStateCode s.pwmState).toNat + cs.length) % 3 := by
  induction cs generalizing s with
  | nil =>
    cases h
    exact (Nat.mod_eq_of_lt (pwmStateCode_lt_three t.pwmState)).symm
  | cons c cs ih =>
    obtain ⟨u, hexec, hrun⟩ := runInstrs_cons_eq_next.1 h
    have hedges : ∀ i ∈ cs.map fun c => Instr.edge c.1 c.2, isReset i = false :=
      List.forall_mem_map.2 fun _ _ => rfl
    have huf : u.fault = none := fault_eq_none_of_runInstrs hedges hrun ht
    rw [ih hrun, (exec_stepsTo _ s u hexec).edge_code huf, List.length_cons]
    omega

/-- Where PWM_UNDERFLOW is not FAULT, an enabled edge leaves the next one enabled. -/
theorem runInstrs_edges_completes (cs : List (Word × Word)) {s : State} (hu : s.Unmarked) (hm : s.mode = .pwm)
    (hi : s.init = true) (hf : s.params.pwmUnderflow ≠ .fault) :
    ∃ t, runInstrs (cs.map fun c => .edge c.1 c.2) s = .next t ∧ t.fault = none := by
  induction cs generalizing s with
  | nil => exact ⟨s, rfl, hu.1⟩
  | cons c cs ih =>
    obtain ⟨u, hexec, huu⟩ := exec_edge_completes hu hm hi c.1 c.2 hf
    have hs := exec_stepsTo _ s u hexec
    obtain ⟨t, hrun, ht⟩ :=
      ih huu ((hs.mode_eq rfl).trans hm) ((hs.init_eq rfl rfl).trans hi) (by rwa [hs.params_eq])
    exact ⟨t, runInstrs_cons_eq_next.2 ⟨u, hexec, hrun⟩, ht⟩

/-- One cycle: the rules of R76, R77 and R78 in turn, the last alone with its captures. -/
theorem runInstrs_cycle (a b c : Word × Word) {s : State} {v10 v25 : Word} (hu : s.Unmarked) (hm : s.mode = .pwm)
    (hi : s.init = true) (hp : s.pwmState = .awaitRise) (h10 : offset s.params.pwmUnderflow c.1 = some v10)
    (h25 : offset s.params.pwmUnderflow c.2 = some v25) :
    runInstrs [.edge a.1 a.2, .edge b.1 b.2, .edge c.1 c.2] s = .next { s with
      capPol := .rising
      H := s.H ++ [.counterReset, .setPolarity .falling, .setPolarity .rising]
      pm25 := v25
      pm10 := v10
      storeValid := true } := by
  have hrise := exec_edge_of_awaitRise hu hm hi a.1 a.2 hp
  have hfall1 := exec_edge_of_awaitFall1 (s := edgeRise s) hu hm hi b.1 b.2 rfl
  have hfall2 := exec_edge_of_awaitFall2 (s := edgeFall1 (edgeRise s)) hu hm hi c.1 c.2 rfl
  rw [edgeFall2_of_offsets (s := edgeFall1 (edgeRise s)) h10 h25] at hfall2
  rw [runInstrs_cons_of_next _ _ _ _ hrise, runInstrs_cons_of_next _ _ _ _ hfall1,
    runInstrs_cons_of_next _ _ _ _ hfall2, runInstrs, ← hp]
  simp [edgeFall1, edgeRise_eq]

/-- Settles O29: the cycle, the count from AWAIT_RISE, whose number is 0, and the runs that cannot fault. -/
theorem sequencerCountsEdgesModThree : Obligations.SequencerCountsEdgesModThree := by
  refine ⟨fun a b c s hu hm hi hp v10 v25 => runInstrs_cycle a b c hu hm hi hp, fun cs s t hp h ht => ?_,
    fun cs s => runInstrs_edges_completes cs⟩
  rw [runInstrs_edges_code h ht, hp]
  exact congrArg (· % 3) (Nat.zero_add cs.length)

end Sys2Proof.Machine
end

section
/-! PROOF. The store statements (43_measurement_store.md): which instruction may write the store, the write of the pair,
and the two reads. -/

namespace Sys2Proof.Machine

/-! ### Who may write the store (R84) -/

/-- Settles O31: RESET, a delivery and the closing edge are the three writers, each where it is enabled; every other
next state of exec has the old store, the faulting edge's among them. -/
theorem storeWrittenOnlyByItsModesWriter : Obligations.StoreWrittenOnlyByItsModesWriter := by
  intro i s t h
  cases exec_stepsTo i s t h with
  | resetUart | resetPwm => exact .inr (.inr (.inr rfl))
  | delivery _ _ _ hi _ hm harmed =>
    have hdelivery : isDelivery i = true := by
      obtain rfl | ⟨raw25, raw10, devId, rfl, -⟩ := hi
      · rfl
      · rfl
    exact .inr (.inl ⟨hm, hdelivery, harmed⟩)
  | edgeStore _ _ _ _ _ _ hm _ hp => exact .inr (.inr (.inl ⟨hm, rfl, hp⟩))
  | _ => exact .inl (by simp)

/-! ### The write (R81) -/

/-- Settles O10: the one update of StoreWrite. -/
theorem storeWriteWritesBothAtOnce : Obligations.StoreWriteWritesBothAtOnce := by
  intro v25 v10 s
  rw [storeWrite]

/-! ### The reads (R82, R83) -/

/-- Before the first write under STORE_RESET = UNWRITTEN there is no value to read. -/
theorem readStore_of_unwritten (value : State → Word) (s : State)
    (h : s.params.storeReset = .unwritten ∧ s.storeValid = false) :
    readStore value s = raiseFault .unwrittenRead s :=
  if_pos h

/-- Settles O30: both reads are one operation on the store, which answers a readable value and faults on an unwritten
one. -/
theorem storeReadsReturnTheStore : Obligations.StoreReadsReturnTheStore := by
  refine fun s hu => ⟨fun hr => ?_, fun hw => ?_⟩
  · exact ⟨exec_getPm25_of_readable s hu hr, exec_getPm10_of_readable s hu hr⟩
  · rw [exec_getPm25_of_unmarked s hu, exec_getPm10_of_unmarked s hu, readStore_of_unwritten _ s hw,
      readStore_of_unwritten _ s hw]
    exact ⟨rfl, rfl⟩

end Sys2Proof.Machine
end

section
/-! PROOF. The exception statements (60_exceptions.md): what a marking step changes, how a marked block stops, and
why the default parameters never fault. -/

namespace Sys2Proof.Machine

section Marks

variable {i : Instr} {s t : State} {r : Fault}

/-! ### What a marking step changes (R87) -/

/-- An instruction that completes leaves no mark, and one that marks changes nothing else. -/
theorem StepsTo.unmarked_or_only_marks (h : StepsTo i s t) :
    t.Unmarked ∨ (∃ r, t = { s with fault := some r }) ∨ (∃ r, t = { s with refused := some r }) := by
  cases h with
  | resetUart | resetPwm => exact .inl ⟨rfl, rfl⟩
  | unwritten | edgeFault => exact .inr (.inl ⟨_, rfl⟩)
  | wrongMode | notInitialised => exact .inr (.inr ⟨_, rfl⟩)
  | _ => exact .inl (by simpa [State.Unmarked])

theorem StepsTo.eq_of_fault (h : StepsTo i s t) (hu : s.Unmarked) (hf : t.fault = some r) :
    t = { s with fault := some r } := by
  obtain ⟨hnone, -⟩ | ⟨r', rfl⟩ | ⟨r', rfl⟩ := h.unmarked_or_only_marks
  · cases hnone.symm.trans hf
  · cases hf; rfl
  · cases hu.1.symm.trans hf

theorem StepsTo.eq_of_refused {r : RefusedReason} (h : StepsTo i s t) (hu : s.Unmarked) (hr : t.refused = some r) :
    t = { s with refused := some r } := by
  obtain ⟨-, hnone⟩ | ⟨r', rfl⟩ | ⟨r', rfl⟩ := h.unmarked_or_only_marks
  · cases hnone.symm.trans hr
  · cases hu.2.symm.trans hr
  · cases hr; rfl

/-! ### From a marked state (R87) -/

/-- RESET is the one instruction with a next state from a marked state. -/
theorem StepsTo.isReset_of_marked (h : StepsTo i s t) (hm : ¬ s.Unmarked) : isReset i = true := by
  cases h with
  | resetUart | resetPwm => rfl
  | _ => exact absurd ‹s.Unmarked› hm

/-- Taking an input touches neither mark. -/
theorem taking_unmarked_iff (x : Input) (rest : List Input) : (s.taking x rest).Unmarked ↔ s.Unmarked := .rfl

/-- RESET is always enabled (R17), and clears both marks (R97). -/
theorem exec_reset_completes (hi : isReset i = true) : ∃ t, exec i s = .next t ∧ t.Unmarked := by
  cases i with
  | resetUart => exact ⟨resetTo .uart s, rfl, rfl, rfl⟩
  | resetPwm => exact ⟨resetTo .pwm s, rfl, rfl, rfl⟩
  | _ => cases hi

/-! ### Where a fault comes from (R86) -/

/-- Under WRAP and ZERO neither fault has its ground (R6, R7, R74, R82, R83). -/
theorem MarksGrounded.fault_eq_none_of_default (hg : MarksGrounded s) (hp : s.params = Params.default) :
    s.fault = none := by
  obtain ⟨-, hunderflow, hunwritten, -, -⟩ := hg
  cases hf : s.fault with
  | none => rfl
  | some r =>
    cases r with
    | pwmUnderflow => exact absurd (hunderflow hf).1 (by simp [hp, Params.default])
    | unwrittenRead => exact absurd (hunwritten hf).1 (by simp [hp, Params.default])

theorem StepsTo.fault_eq_none_of_default (h : StepsTo i s t) (hp : s.params = Params.default) : t.fault = none :=
  h.marksGrounded.fault_eq_none_of_default (h.params_eq.trans hp)

theorem ifLive_eq_fault (k : State → Result) (hk : k s ≠ .fault r) (h : ifLive s k = .fault r) :
    s.fault = some r := by
  unfold ifLive at h
  split at h
  · cases h; assumption
  · cases h
  · exact absurd h hk

/-- A step answers a fault only where it is recorded, like `exec` (R87; log 1): waiting and rejecting raise none. -/
theorem step_eq_fault (h : step s = .fault r) : s.fault = some r := by
  cases hin : s.input with
  | nil =>
    rw [step_of_no_input s hin] at h
    exact ifLive_eq_fault .next nofun h
  | cons x rest =>
    cases hd : decode s.mode x.level x.bytes with
    | ok i =>
      rw [step_of_decoded s x rest i hin hd] at h
      exact exec_eq_fault i (s.taking x rest) r h
    | error e =>
      rw [step_of_rejected s x rest e hin hd] at h
      refine ifLive_eq_fault (s := s.taking x rest) _ ?_ h
      cases x.level <;> exact nofun

end Marks

/-! ### The obligations -/

/-- Settles O33: a marking step is only the mark; from a marked state only RESET is left, for an instruction and for
the one a step decodes, since waiting and marking an unknown operation need an unmarked state. -/
theorem markedInstanceStepsOnlyByReset : Obligations.MarkedInstanceStepsOnlyByReset := by
  refine ⟨fun i s t hu h => ?_, fun i s t hm hi h => ?_, fun s t hm h => ?_, fun i s => exec_reset_completes⟩
  · have hs := exec_stepsTo i s t h
    exact ⟨fun r => hs.eq_of_fault hu, fun r => hs.eq_of_refused hu⟩
  · cases hi.symm.trans ((exec_stepsTo i s t h).isReset_of_marked hm)
  · obtain ⟨-, hu, -⟩ | ⟨x, rest, hin, ⟨i, hd, hs⟩ | ⟨e, -, hu, -, -⟩⟩ := step_eq_next s t h
    · exact absurd hu hm
    · exact ⟨x, rest, i, hin, hd, hs.isReset_of_marked (mt (taking_unmarked_iff x rest).1 hm)⟩
    · exact absurd hu hm

/-- Settles O34: every instruction but RESET runs under the test of the marks, the fault's before the refusal's. -/
theorem markedInstanceStopsWithItsReason : Obligations.MarkedInstanceStopsWithItsReason :=
  fun i s hi => ⟨fun r => exec_of_fault i s r hi, fun r => exec_of_refused i s r hi⟩

/-- Settles O35: a mark that an instruction sets has a ground that the defaults exclude, waiting and an unknown
operation set no fault, and a fault is answered only where it stands already. -/
theorem defaultsNeverFault : Obligations.DefaultsNeverFault := by
  intro s hp hf
  have not_recorded (r : Fault) : s.fault ≠ some r := by simp [hf]
  refine ⟨fun i => ⟨fun t h => (exec_stepsTo i s t h).fault_eq_none_of_default hp, fun r h => ?_⟩, fun t h => ?_,
    fun r h => not_recorded r (step_eq_fault h)⟩
  · exact not_recorded r (exec_eq_fault i s r h)
  · obtain ⟨-, -, rfl⟩ | ⟨x, rest, -, ⟨i, -, hs⟩ | ⟨e, -, -, -, rfl⟩⟩ := step_eq_next s t h
    · exact hf
    · exact hs.fault_eq_none_of_default hp
    · exact hf

end Sys2Proof.Machine
end

section
/-! PROOF. The reset and hazard statements (70_reset_and_hazards.md): what RESET restores, where MODE changes, a
stream of deliveries out of step, and a blocking operation around a delivery. -/

namespace Sys2Proof.Machine

/-! ### RESET (R97, R98) -/

/-- Settles O44: from every state the row answers the reset state of its mode, whose store the parameter decides. -/
theorem resetRestoresEveryField : Obligations.ResetRestoresEveryField := by
  intro i m s h
  have hexec : exec i s = .next (resetTo m s) := by
    obtain ⟨rfl, rfl⟩ | ⟨rfl, rfl⟩ := h
    · rfl
    · rfl
  refine ⟨resetTo m s, hexec, rfl, rfl, fun hz => ?_, rfl, rfl, rfl, rfl, rfl, rfl, rfl⟩
  simp [resetTo_pm25, resetTo_pm10, hz]

/-- Settles O42: R33 and R34 hold at reset, and every other part is about a field at its reset value. -/
theorem resetMeetsInvariant : Obligations.ResetMeetsInvariant := by
  obtain ⟨hpolarity, -⟩ := polarityFollowsSequencer
  obtain ⟨harmed, -⟩ := receiveStaysArmedOnceInitialised
  have hquiet : QuietBeforeInit State.reset := fun _ => ⟨rfl, rfl, rfl, rfl⟩
  have hmodes : ModesApart State.reset := ⟨fun _ => rfl, nofun⟩
  have hhistory : HistoryOfMode State.reset := nofun
  have hstore : StoreInRange State.reset := ⟨fun _ _ => ⟨rfl, rfl⟩, nofun⟩
  exact ⟨hpolarity, harmed, hquiet, hmodes, hhistory, marksGrounded_of_unmarked ⟨rfl, rfl⟩, hstore⟩

/-- Settles O46: every other instruction frames the mode, and each RESET row writes the mode it names. -/
theorem modeChangesOnlyAtReset : Obligations.ModeChangesOnlyAtReset := by
  refine fun i s t h => ⟨(exec_stepsTo i s t h).mode_eq, ?_, ?_⟩
  · rintro rfl
    cases h
    rfl
  · rintro rfl
    cases h
    rfl

/-! ### Deliveries out of step (R101) -/

theorem exec_rxdone_of_armed (b : Bytes10) (s : State) (hu : s.Unmarked) (hm : s.mode = .uart)
    (ha : s.rxArmed = true) : exec (.rxdone b) s = .next (receive b s) := by
  rw [exec_rxdone_of_unmarked b s hu, deliver_of_armed b s hm ha]

/-- Settles O21, by induction on the deliveries: each leaves an armed state with its own bytes in the buffer, from
which the rest run. -/
theorem undecodedDeliveriesFreezeTheStore : Obligations.UndecodedDeliveriesFreezeTheStore := by
  intro bs
  induction bs with
  | nil => exact fun s _ _ _ _ => ⟨s, rfl, by simp⟩
  | cons b bs ih =>
    intro s hu hm ha hd
    obtain ⟨hb, hbs⟩ := List.forall_mem_cons.1 hd
    have hrec : receive b s = { s with rxBuf := b, H := s.H ++ [.arm 10] } := by
      rw [receive_of_undecoded b s hb, ← ha]
    obtain ⟨t, hrun, ht⟩ := ih { s with rxBuf := b, H := s.H ++ [.arm 10] } hu hm ha hbs
    refine ⟨t, ?_, ?_⟩
    · rw [List.map_cons, runInstrs_cons_of_next _ _ s _ (exec_rxdone_of_armed b s hu hm ha), hrec, hrun]
    · simpa only [List.length_cons, List.replicate_succ, List.getLastD_cons, List.append_assoc,
        List.singleton_append] using ht

/-! ### A blocking operation around a delivery (R106) -/

/-- The session R106 speaks of: MODE = UART after INIT, no mark, a request pending. -/
def State.InSession (s : State) : Prop := s.Unmarked ∧ s.mode = .uart ∧ s.init = true ∧ s.rxArmed = true

section Session

variable {s : State} {i : Instr}

theorem State.InSession.after_send (h : s.InSession) (bytes : List Byte) : (sendAndReply bytes s).InSession := h

theorem State.InSession.after_receive (h : s.InSession) (b : Bytes10) : (receive b s).InSession := by
  obtain ⟨hu, hm, hi, -⟩ := h
  simpa [State.InSession, State.Unmarked, hm, hi] using hu

theorem exec_rxdone_of_inSession (b : Bytes10) (h : s.InSession) : exec (.rxdone b) s = .next (receive b s) := by
  obtain ⟨hu, hm, -, ha⟩ := h
  exact exec_rxdone_of_armed b s hu hm ha

/-- In a session INIT is one more send: `init` stands and the request is pending already. -/
theorem initUart_of_inSession (h : s.InSession) : initUart s = sendAndReply (setwpFrame 0) s := by
  obtain ⟨-, -, hi, ha⟩ := h
  simp [initUart_eq, sendAndReply_eq, hi, ha]

/-- In a session WAKE is one more send: whatever the draw, ArmRx has nothing to do. -/
theorem wakeAndReply_of_inSession (h : s.InSession) : wakeAndReply s = sendAndReply encodeWakeByte s := by
  obtain ⟨-, -, -, ha⟩ := h
  by_cases hs : s.txStatus = .sent
  · rw [wakeAndReply_of_sent s hs, sendAndReply_eq, if_pos ha, List.append_nil, ← ha]
  · exact wakeAndReply_of_not_sent s hs

/-- Each blocking operation of R106 is, in every session, the one send of a frame that the state does not choose. -/
theorem exec_blocking_eq_sendAndReply (hi : isCommand i = true ∨ i = .init) :
    ∃ bytes, ∀ s : State, s.InSession → exec i s = .next (sendAndReply bytes s) := by
  cases i with
  | setwp p =>
    refine ⟨encodeSetWorkingPeriod p, fun s ⟨hu, hm, hn, _⟩ => ?_⟩
    rw [exec_setwp_of_unmarked p s hu, commandGuard_of_ready s _ hm hn]
  | sleep =>
    refine ⟨encodeSleepCommand, fun s ⟨hu, hm, hn, _⟩ => ?_⟩
    rw [exec_sleep_of_unmarked s hu, commandGuard_of_ready s _ hm hn]
  | wake =>
    refine ⟨encodeWakeByte, fun s h => ?_⟩
    have ⟨hu, hm, hn, _⟩ := h
    rw [exec_wake_of_unmarked s hu, commandGuard_of_ready s _ hm hn, wakeAndReply_of_inSession h]
  | init =>
    refine ⟨setwpFrame 0, fun s h => ?_⟩
    have ⟨hu, hm, _, _⟩ := h
    rw [exec_init_of_unmarked s hu, initialise_of_uart s hm, initUart_of_inSession h]
  | _ => simp [isCommand] at hi

/-- A send and a delivery write disjoint fields, but for the history (R106). -/
theorem sendAndReply_receive (bytes : List Byte) (b : Bytes10) (s : State) :
    sendAndReply bytes (receive b s)
      = { receive b (sendAndReply bytes s) with H := s.H ++ [.arm 10] ++ [.tx bytes s.txStatus] } := by
  cases hd : decodeFrame b with
  | none => simp only [receive_of_undecoded b _ hd, sendAndReply_eq]
  | some v =>
    obtain ⟨v25, v10⟩ := v
    simp only [receive_of_decoded b v25 v10 _ hd, sendAndReply_eq]

end Session

/-- Settles O58: both orders are a send and a delivery, which commute but for the order of their two emissions. -/
theorem sendsAndDeliveriesCommute : Obligations.SendsAndDeliveriesCommute := by
  intro i b s hi hu hm hn ha
  have hs : s.InSession := ⟨hu, hm, hn, ha⟩
  obtain ⟨bytes, hsend⟩ := exec_blocking_eq_sendAndReply hi
  refine ⟨receive b (sendAndReply bytes s), sendAndReply bytes (receive b s), ?_, ?_, ?_, ?_⟩
  · rw [runInstrs_cons_of_next _ _ s _ (hsend s hs),
      runInstrs_cons_of_next _ _ _ _ (exec_rxdone_of_inSession b (hs.after_send bytes)), runInstrs]
  · rw [runInstrs_cons_of_next _ _ s _ (exec_rxdone_of_inSession b hs),
      runInstrs_cons_of_next _ _ _ _ (hsend _ (hs.after_receive b)), runInstrs]
  · rw [sendAndReply_receive]
  · have hswap := List.Perm.swap (Out.tx bytes s.txStatus) (.arm 10) []
    simpa using hswap.append_left s.H

end Sys2Proof.Machine
end
